-- ==== Sys2Proof/Word.lean ====
section
/-! DEFINITION. The bit widths of the block's words (spec/30_encoding.md R53): plain abbreviations, so that the
library's lemmas about bit vectors apply. -/

namespace Sys2Proof

/-- A byte on its way to the LCD, or the payload of a command word (R54). -/
abbrev Byte := BitVec 8

/-- "a 4-bit half of a byte" (R12, glossary): what the four data lines carry. -/
abbrev Nibble := BitVec 4

/-- Format C, a host command word (R54). -/
abbrev CmdWord := BitVec 16

/-- Format E, an edge event record (R55). -/
abbrev EdgeRec := BitVec 4

/-- Format D, a DisplayCommand: flag on top of an 8-bit payload (R56). -/
abbrev DispCmd := BitVec 9

/-- Format N, a latched bus nibble: selector level on top of the four data bits (R57). -/
abbrev Frame := BitVec 5

end Sys2Proof
end

