-- ==== Sys2Proof/Config.lean ====
section
/-! DEFINITION. What an implementation fixes for the life of the block: the "decided" and "open" rows of the
parameter table of spec/00_scope.md R7. The table's default values, and its "source" rows (constants), stand in
Sys2Proof/Machine/Parameters.lean. -/

namespace Sys2Proof

/-- The parameters "decided" or "open" in R7: "an argument of the model (a configuration field), so a claim may
quantify over it". State carries one such record, which no step writes (R24, notes/assumptions/1.md), so a statement
about every state is a statement about every choice of parameters. -/
structure Params where
  /-- `POS_W`, the width of `position` on `rd_data` (D1); constraint `POS_W >= 13`. -/
  posW : Nat
  /-- `CMD_CLEAR` (D19). -/
  cmdClear : Byte
  /-- `CMD_ENTRY_MODE` (D19). -/
  cmdEntryMode : Byte
  /-- `CMD_DISPLAY_CTRL` (D19). -/
  cmdDisplayCtrl : Byte
  /-- `CMD_FUNCTION_SET` (D19). -/
  cmdFunctionSet : Byte
  /-- `CMD_SET_DDRAM` (D19). -/
  cmdSetDdram : Byte
  /-- `T_PWRON_US` (D18): the post-power-on wait. -/
  tPwron : Nat
  /-- `T_INIT1_US` to `T_INIT4_US` (D18): the waits after the four reset nibbles. -/
  tInit1 : Nat
  tInit2 : Nat
  tInit3 : Nat
  tInit4 : Nat
  /-- `T_EN_HIGH_US` (D16): "held briefly". -/
  tEnHigh : Nat
  /-- `T_EN_SETTLE_US` (D16): "then a settle delay". -/
  tEnSettle : Nat
  /-- `T_CHAR_US` (D17). -/
  tChar : Nat
  /-- `T_CLEAR_US` (D17). -/
  tClear : Nat
  /-- `F_CLK_MHZ`, OPEN (D22, R163), held as the fraction `clkNum / clkDen` (notes/assumptions/2.md). -/
  clkNum : Nat
  clkDen : Nat
  deriving DecidableEq, Repr

end Sys2Proof
end

