-- ==== Sys2Proof/Machine/Parameters.lean ====
section
/-! DEFINITION. The constants the source fixes and the default values of the decided parameters: the table of
spec/00_scope.md R7. -/

namespace Sys2Proof.Machine

/-- `QUADRATURE_FACTOR` and `PULSES_PER_REV` (R6): used by no other rule. -/
def quadratureFactor : Nat := 4
def pulsesPerRev : Nat := 1024

/-- `P`, the modulus of the position counter (R6). -/
def modulus : Int := 4096

/-- `HALF = P/2` (R6): the position range is `[-HALF, +HALF)`. -/
def half : Int := 2048

/-- `LCD_COLS` and `LCD_ROWS` (R7). -/
def lcdCols : Nat := 16
def lcdRows : Nat := 2

/-- `ROW_BASE` (R7, R38): the display-memory address of column 0 of each row. -/
def rowBase (row : BitVec 1) : BitVec 7 := if row = 0#1 then 0x00#7 else 0x40#7

/-- `INIT_NIBBLES` (R7): "three 0x03 nibbles then 0x02". -/
def initNibble1 : Nibble := 0x3#4
def initNibble2 : Nibble := 0x3#4
def initNibble3 : Nibble := 0x3#4
def initNibble4 : Nibble := 0x2#4

/-- The default value of every decided parameter (R7). The bytes are `[from general knowledge, not in source]` and
the delays meet the source's orders of magnitude (notes/assumptions/13.md); the clock's value is open (R163), and the one
here is this model's choice (notes/assumptions/2.md): DESIGN CHOICE, unsafe to rest a claim on. -/
def defaultParams : Params where
  posW := 16
  cmdClear := 0x01#8
  cmdEntryMode := 0x06#8
  cmdDisplayCtrl := 0x0C#8
  cmdFunctionSet := 0x28#8
  cmdSetDdram := 0x80#8
  tPwron := 50000
  tInit1 := 5000
  tInit2 := 150
  tInit3 := 150
  tInit4 := 150
  tEnHigh := 1
  tEnSettle := 50
  tChar := 50
  tClear := 2000
  clkNum := 1
  clkDen := 1

end Sys2Proof.Machine
end

