-- ==== Sys2Proof/Syntax.lean ====
section
/-! DEFINITION. The block's operations (spec/00_scope.md R3, spec/30_encoding.md R59), one constructor per row of
spec/opcode_table.json; the pseudo-operations (R66); and the sequencer's micro-operations (spec/41_lcd.md R93). -/

namespace Sys2Proof

/-- Polarity of a triggering edge: the field `p` of an edge event record, "read by no rule" (R55, R76). -/
inductive Polarity where
  | falling
  | rising
  deriving DecidableEq, Repr

/-- The seven operations (R3), with the operands R59 and R60 give them. Every operand type holds exactly the values
the encoding can carry, so no operand is ever out of range. -/
inductive Instr where
  /-- `EDGE_A p, a, b` (R74): channel A made a transition; `a` and `b` are the sampled levels. -/
  | edgeA (p : Polarity) (a b : Bool)
  /-- `EDGE_B p, a, b` (R75): channel B made a transition. -/
  | edgeB (p : Polarity) (a b : Bool)
  /-- `RDPOS` (R79): read the current wrapped pulse count. -/
  | rdpos
  /-- `LCD_INIT` (R104): the cold-start handshake. -/
  | lcdInit
  /-- `LCD_CMD byte` (R105): a control byte, selector line low. -/
  | lcdCmd (byte : Byte)
  /-- `LCD_DATA byte` (R106): a character byte, selector line high. -/
  | lcdData (byte : Byte)
  /-- `LCD_CURSOR col, row` (R108): set the controller's display address. -/
  | lcdCursor (col : BitVec 6) (row : BitVec 1)
  deriving DecidableEq, Repr

/-- The pseudo-operations of R66: each stands for a sequence of real operations and has no encoding. -/
inductive Pseudo where
  /-- `PRINT "text"` (R109). -/
  | print (text : List Byte)
  /-- `CLEAR` (R110). -/
  | clear
  /-- `FRAME "text"` (R111). -/
  | frame (text : List Byte)
  deriving DecidableEq, Repr

/-- The four micro-operations of the LCD sequencer (R93). -/
inductive MicroOp where
  /-- `SET_RS(v)`: drive the register-select pin. -/
  | setRs (v : Bool)
  /-- `SET_D(n)`: drive the four data pins. -/
  | setD (n : Nibble)
  /-- `SET_E(v)`: drive the enable pin. -/
  | setE (v : Bool)
  /-- `WAIT(t)`: let at least `t` microseconds pass. -/
  | wait (t : Nat)
  deriving DecidableEq, Repr

/-- The port a word arrives on, with the word: format E records come from the environment, format C words from the
host (R53, R63: "The length of every word is fixed by the port it arrives on"). -/
inductive PortWord where
  | edge (r : EdgeRec)
  | cmd (cw : CmdWord)
  deriving DecidableEq, Repr

/-- The operations that arrive on the command port and run on the LCD sequencer (R94). -/
def Instr.isLcdOp : Instr → Bool
  | .edgeA _ _ _ => false
  | .edgeB _ _ _ => false
  | .rdpos => false
  | .lcdInit => true
  | .lcdCmd _ => true
  | .lcdData _ => true
  | .lcdCursor _ _ => true

/-- The operations that run in the interrupt context (R140). -/
def Instr.isEdge : Instr → Bool
  | .edgeA _ _ _ => true
  | .edgeB _ _ _ => true
  | .rdpos => false
  | .lcdInit => false
  | .lcdCmd _ => false
  | .lcdData _ => false
  | .lcdCursor _ _ => false

end Sys2Proof
end

