-- ==== Sys2Proof/Machine/State.lean ====
section
/-! DEFINITION. The architectural state of the block (spec/10_state.md R13), the inputs it reads (R28 to R30), the
reasons a step can stop, and the state after reset (R31). -/

namespace Sys2Proof.Machine

/-- The event alphabet of the observation trace (R27). -/
inductive Event where
  /-- `RS(v)`: the register-select pin was written with level `v`. -/
  | rs (v : Bool)
  /-- `E(v)`: the enable pin was written with `v`. -/
  | e (v : Bool)
  /-- `D(n)`: the four data pins were written with `n`. -/
  | d (n : Nibble)
  /-- `Delay(t)`: the sequencer waited at least `t` microseconds. -/
  | delay (t : Nat)
  /-- `PosRead(v)`: an `RDPOS` returned the value `v`. -/
  | posRead (v : Int)
  deriving DecidableEq, Repr

/-- The input ports in one tick of the clock (R30), with one free choice of the implementation. -/
structure TickIn where
  /-- `rst_n`: reset, active low (R151). -/
  rstN : Bool
  /-- `enc_a`, `enc_b`: the levels of the encoder channels. -/
  encA : Bool
  encB : Bool
  /-- `cmd_valid`: the host presents a command word. -/
  cmdValid : Bool
  /-- `cmd_word`: the command word. -/
  cmdWord : CmdWord
  /-- Not a port: the implementation lengthens a wait by this tick. A wait is a lower bound, "lengthening one is always
  allowed" (R107, R157; notes/assumptions/10.md). -/
  hold : Bool
  deriving DecidableEq, Repr

/-- Who moves next. "The model fixes no schedule: a claim holds for every interleaving" (R29), so the schedule is
data (notes/assumptions/5.md). -/
inductive Turn where
  /-- The edge agent takes a step (R29). -/
  | edge
  /-- The foreground agent takes a step (R29). -/
  | foreground
  /-- The clock ticks: one step of the tick-level refinement (R82, R163). -/
  | tick (inp : TickIn)
  deriving DecidableEq, Repr

/-- The machine. The fields down to `obs` are the complete architectural state of R13; `waited` is the tick count of a
`WAIT` under way (R163); `cfg` holds the parameters, which no step writes; the last three are the inputs the
environment has supplied and the block has not yet consumed (R28). -/
structure State where
  /-- The wrapped pulse count, "a signed integer", "in `[-2048, 2048)`" (R14, R15; notes/assumptions/3.md). -/
  position : Int
  /-- 1 once the edge detector has a previous sample (R17). -/
  primed : Bool
  /-- The previous sampled levels of the two channels (R17; notes/assumptions/4.md). -/
  aQ : Bool
  bQ : Bool
  /-- The levels driven on the register-select, enable and data pins (R19). -/
  lcdRs : Bool
  lcdE : Bool
  lcdD : Nibble
  /-- 0 = Uninitialized, 1 = Ready (R20). -/
  lcdReady : Bool
  /-- The LCD operation in progress; `none` = idle (R21). -/
  lcdCw : Option CmdWord
  /-- The index of the next micro-operation (R22). -/
  lcdPc : Nat
  /-- The observation trace (R27), oldest event first. -/
  obs : List Event
  /-- The model's own: ticks already spent in the `WAIT` under way (R163; notes/assumptions/10.md). -/
  waited : Nat
  /-- The parameters of R7, fixed for the life of the block (R24). -/
  cfg : Params
  /-- Edge event records the environment has supplied and no step has consumed, oldest first. -/
  edges : List EdgeRec
  /-- Command words the host has issued and the block has not accepted, oldest first. -/
  cmds : List CmdWord
  /-- Who moves next, soonest first. -/
  sched : List Turn
  deriving DecidableEq, Repr

/-- The hardware raises no exception (R130), so the one fault is the model's own. -/
inductive Fault where
  /-- Raised by a micro step when the sequencer holds no micro-operation to perform: `lcd_cw` has no micro-program or
  `lcd_pc` is beyond its end. No run from reset reaches such a state (R22, R94). Safe: the model stops where the spec
  says nothing (notes/assumptions/8.md). -/
  | noMicroOperation
  deriving DecidableEq, Repr

/-- The inputs the spec gives no meaning: "The model must `refuse` the step" (R61, R113, R114, R130). -/
inductive Refusal where
  /-- Raised by `exec` alone, for an operation that has no meaning in the model yet. Safe: nothing is said of it. -/
  | notModelled (mnemonic : String)
  /-- `refuse(reserved_word)`: raised by the acceptance of a reserved command word (R61). Safe. -/
  | reservedWord
  /-- `refuse(not_initialized)`: raised by the acceptance of `LCD_CMD`, `LCD_DATA` or `LCD_CURSOR` while
  `lcd_ready = 0` (R113). Safe. -/
  | notInitialized
  /-- `refuse(second_init)`: raised by the acceptance of `LCD_INIT` while `lcd_ready = 1` (R114). Safe. -/
  | secondInit
  deriving DecidableEq, Repr

/-- The state after reset (R31). `aQ` and `bQ` are "unspecified" there: false is this model's choice
(notes/assumptions/4.md). The environment has supplied nothing yet: "the block does nothing after reset until an edge
event or a command word arrives". -/
def State.reset : State where
  position := 0
  primed := false
  aQ := false
  bQ := false
  lcdRs := false
  lcdE := false
  lcdD := 0#4
  lcdReady := false
  lcdCw := none
  lcdPc := 0
  obs := []
  waited := 0
  cfg := defaultParams
  edges := []
  cmds := []
  sched := []

end Sys2Proof.Machine
end

