-- ==== Sys2Proof/Machine/Flags.lean ====
section
/-! DEFINITION. The block has "no condition codes, no carry, overflow, zero or sign flag and no predicate"
(spec/10_state.md R23). What stands here is the one derived signal of that rule and the port that shows it. -/

namespace Sys2Proof.Machine

/-- `lcd_busy = (lcd_cw != none)` (R23). -/
def State.lcdBusy (s : State) : Bool := s.lcdCw.isSome

/-- The output port `cmd_ready`, "`1` exactly when `lcd_cw = none`" (R30). -/
def State.cmdReady (s : State) : Bool := s.lcdCw.isNone

end Sys2Proof.Machine
end

