-- ==== Sys2Proof/Decode.lean ====
section
/-! DEFINITION. The decoders and the encoder (spec/30_encoding.md R54 to R63). Both decoders are total; a reserved
command word is rejected under the name of the condition of R61 it meets. -/

namespace Sys2Proof

/-- Why a command word is reserved: the four conditions of R61. -/
inductive Reserved where
  /-- `cw[15:12]` is `0x0` or is `0x6` to `0xF`. -/
  | opcode
  /-- `cw[11:8] != 0`. -/
  | zeroField
  /-- Opcode `0x1` or `0x5` with `cw[7:0] != 0`. -/
  | payload
  /-- Opcode `0x4` with `cw[7] = 1`. -/
  | cursorBit
  deriving DecidableEq, Repr

/-- What a decoder answers: "Op or Reserved" (R63). -/
inductive Decoded where
  | op (i : Instr)
  | reserved (why : Reserved)
  deriving DecidableEq, Repr

/-- The bits of a format C word (R54). -/
def opcodeField (cw : CmdWord) : BitVec 4 := cw.extractLsb' 12 4
def zeroField (cw : CmdWord) : BitVec 4 := cw.extractLsb' 8 4
def payloadField (cw : CmdWord) : Byte := cw.extractLsb' 0 8

/-- The operands of `LCD_CURSOR`: `row = cw[6]`, `col = cw[5:0]` (R60). -/
def rowField (cw : CmdWord) : BitVec 1 := cw.extractLsb' 6 1
def colField (cw : CmdWord) : BitVec 6 := cw.extractLsb' 0 6

/-- `p`: 1 is rising, 0 is falling (R55). -/
def polarityOfBit (v : Bool) : Polarity := if v then .rising else .falling
def bitOfPolarity : Polarity → Bool
  | .rising => true
  | .falling => false

/-- `decodeE` (R59, R63): `ev[3]` selects the channel, `ev[2]` is the polarity, `ev[1]` and `ev[0]` are the sampled
levels. All 16 records are legal (R62). -/
def decodeE (r : EdgeRec) : Instr :=
  if r.getLsbD 3 then .edgeB (polarityOfBit (r.getLsbD 2)) (r.getLsbD 1) (r.getLsbD 0)
  else .edgeA (polarityOfBit (r.getLsbD 2)) (r.getLsbD 1) (r.getLsbD 0)

/-- `decodeC` (R59, R61, R63). -/
def decodeC (cw : CmdWord) : Decoded :=
  if opcodeField cw = 0x0#4 ∨ 0x6#4 ≤ opcodeField cw then .reserved .opcode
  else if zeroField cw ≠ 0x0#4 then .reserved .zeroField
  else if opcodeField cw = 0x1#4 then
    if payloadField cw = 0x00#8 then .op .lcdInit else .reserved .payload
  else if opcodeField cw = 0x2#4 then .op (.lcdCmd (payloadField cw))
  else if opcodeField cw = 0x3#4 then .op (.lcdData (payloadField cw))
  else if opcodeField cw = 0x4#4 then
    if cw.getLsbD 7 then .reserved .cursorBit else .op (.lcdCursor (colField cw) (rowField cw))
  else
    if payloadField cw = 0x00#8 then .op .rdpos else .reserved .payload

/-- Decoding by the port the word arrived on (R63). -/
def decode : PortWord → Decoded
  | .edge r => .op (decodeE r)
  | .cmd cw => decodeC cw

/-- An edge event record written from its bits `c`, `p`, `a`, `b` (R55). -/
def edgeRecord (c : Bool) (p : Polarity) (a b : Bool) : EdgeRec :=
  BitVec.ofBool c ++ BitVec.ofBool (bitOfPolarity p) ++ BitVec.ofBool a ++ BitVec.ofBool b

/-- The command words of R59, one per format C row. -/
def wordRdpos : CmdWord := 0x5000#16
def wordLcdInit : CmdWord := 0x1000#16
def wordLcdCmd (byte : Byte) : CmdWord := 0x20#8 ++ byte
def wordLcdData (byte : Byte) : CmdWord := 0x30#8 ++ byte
def wordLcdCursor (col : BitVec 6) (row : BitVec 1) : CmdWord := 0x40#8 ++ 0#1 ++ row ++ col

/-- The encoder: the word of an operation, with the port it is presented on (R59, R65). -/
def encode : Instr → PortWord
  | .edgeA p a b => .edge (edgeRecord false p a b)
  | .edgeB p a b => .edge (edgeRecord true p a b)
  | .rdpos => .cmd wordRdpos
  | .lcdInit => .cmd wordLcdInit
  | .lcdCmd byte => .cmd (wordLcdCmd byte)
  | .lcdData byte => .cmd (wordLcdData byte)
  | .lcdCursor col row => .cmd (wordLcdCursor col row)

/-- The port word that stands for a table word of `nbits` bits: a row of at most 8 bits is a format E record (its 4
bits, the rest of the byte being zero), a row of 9 to 16 bits a format C word (notes/assumptions/14.md). -/
def tableWord (nbits w : Nat) : Option PortWord :=
  if nbits ≤ 8 then
    if w < 16 then some (.edge (BitVec.ofNat 4 w)) else none
  else if nbits ≤ 16 then
    if w < 65536 then some (.cmd (BitVec.ofNat 16 w)) else none
  else none

/-- The operation an answer of a decoder names, if it names one. -/
def Decoded.toOption : Decoded → Option Instr
  | .op i => some i
  | .reserved _ => none

/-- The operation this decoder reads from a word numbered as spec/opcode_table.json numbers it. -/
def decodeTableWord (nbits w : Nat) : Option Instr :=
  match tableWord nbits w with
  | none => none
  | some pw => (decode pw).toOption

end Sys2Proof
end

