-- ==== Sys2Proof/Machine/Operands.lean ====
section
/-! DEFINITION. What an operation computes from its operands: the direction decode and the wrap of unit Q
(spec/40_quadrature.md R72, R73), the value on `rd_data` (R79), the nibble split, the post delay and the set-address
byte of unit L (spec/41_lcd.md R97, R101, R108), and the spec's formats D and N (R56, R57). -/

namespace Sys2Proof.Machine

/-- The channel that fired: the bit `c` of an edge record (R55). -/
inductive Channel where
  | chanA
  | chanB
  deriving DecidableEq, Repr

/-- The direction decode (R72): forward is `+1`, backward is `-1`. -/
def dir (c : Channel) (a b : Bool) : Int :=
  match c with
  | .chanA => if a == b then 1 else -1
  | .chanB => if a != b then 1 else -1

/-- The wrap correction (R73): one conditional add or subtract, not a general modulo. -/
def wrap (v : Int) : Int :=
  if v < -half then v + modulus
  else if half ≤ v then v - modulus
  else v

/-- The change an edge record stands for: `dir(c, a, b)` of its fields (R55, R72). -/
def edgeDelta (r : EdgeRec) : Int :=
  dir (if r.getLsbD 3 then .chanB else .chanA) (r.getLsbD 1) (r.getLsbD 0)

/-- The output port `rd_data` (R30, R79): `position` as a two's complement pattern of `POS_W` bits. -/
def State.rdData (s : State) : BitVec s.cfg.posW := BitVec.ofInt s.cfg.posW s.position

/-- The nibble split (R97). -/
def hiNibble (v : Byte) : Nibble := v.extractLsb' 4 4
def loNibble (v : Byte) : Nibble := v.extractLsb' 0 4

/-- The command-dependent settle delay (R101). The rule's `0x01` is the parameter `CMD_CLEAR`; `0x02` and `0x03` are
return-home (notes/assumptions/9.md). -/
def postDelay (c : Params) (rs : Bool) (v : Byte) : Nat :=
  if rs = false ∧ (v = c.cmdClear ∨ v = 0x02#8 ∨ v = 0x03#8) then c.tClear else c.tChar

/-- `addr = ROW_BASE[row] + col` (R38, R108). -/
def ddramAddr (col : BitVec 6) (row : BitVec 1) : BitVec 7 := rowBase row + col.zeroExtend 7

/-- The addresses of the "visible 16-character line" of each row (R38). -/
def ddramVisible (addr : BitVec 7) : Bool :=
  decide (addr.toNat < lcdCols) || (decide (0x40 ≤ addr.toNat) && decide (addr.toNat < 0x40 + lcdCols))

/-- Format A, the set-address command byte: `CMD_SET_DDRAM | addr` (R58, R108). -/
def cursorByte (c : Params) (col : BitVec 6) (row : BitVec 1) : Byte :=
  c.cmdSetDdram ||| (ddramAddr col row).zeroExtend 8

/-- Format D (R56): the flag is 0 for a control instruction and 1 for a data byte. -/
def displayCommand (flag : Bool) (payload : Byte) : DispCmd := BitVec.ofBool flag ++ payload

/-- Format D inside format C (R56): `dc = {cw[12], cw[7:0]}`, for opcodes `0x2` and `0x3`. -/
def dispCmdOfWord (cw : CmdWord) : DispCmd := displayCommand (cw.getLsbD 12) (payloadField cw)

/-- Format N (R57): the selector level on top of the four data bits. -/
def busFrame (rs : Bool) (n : Nibble) : Frame := BitVec.ofBool rs ++ n

/-- The two frames of the byte transfer of a DisplayCommand (R57). -/
def framesOfDispCmd (dc : DispCmd) : List Frame :=
  [busFrame (dc.getLsbD 8) (dc.extractLsb' 4 4), busFrame (dc.getLsbD 8) (dc.extractLsb' 0 4)]

/-- How many ticks a `WAIT(t)` takes at least: `ceil(t * F_CLK_MHZ)`, "and at least one" (R163). -/
def waitTicks (c : Params) (t : Nat) : Nat := max 1 ((t * c.clkNum + c.clkDen - 1) / c.clkDen)

end Sys2Proof.Machine
end

