-- ==== Sys2Proof/Machine/Ops.lean ====
section
/-! DEFINITION. The named operations the meanings are made of. Every write of a field of State goes through one of
these. The block has no memory (spec/20_memory.md R36), so there is no memory operation; it raises no exception
(spec/60_exceptions.md R130), and what stands in the place of exception entry is `takeEdge`. -/

namespace Sys2Proof.Machine

/-- `emit(ev)` (R10): append an event to the trace. -/
def State.emit (s : State) (ev : Event) : State := { s with obs := s.obs ++ [ev] }

/-- `position <- v`: used by the edge operations alone (R16). -/
def State.setPosition (s : State) (v : Int) : State := { s with position := v }

/-- The front end's latch of the sampled levels (R82). -/
def State.latchSample (s : State) (a b : Bool) : State := { s with primed := true, aQ := a, bQ := b }

/-- The four micro-operations' pin writes (R10, R96): the pin, and the event beside it. -/
def State.driveRs (s : State) (v : Bool) : State := { s with lcdRs := v, obs := s.obs ++ [.rs v] }
def State.driveE (s : State) (v : Bool) : State := { s with lcdE := v, obs := s.obs ++ [.e v] }
def State.driveD (s : State) (n : Nibble) : State := { s with lcdD := n, obs := s.obs ++ [.d n] }

/-- Taking an edge event, what the source calls an interrupt (R136): "saves nothing", "changes no state but
`position`". There is no return operation: the edge operation "ends when its single step ends" (R138). -/
def State.takeEdge (s : State) (c : Channel) (a b : Bool) : State := s.setPosition (wrap (s.position + dir c a b))

/-- The event a micro-operation appends (R96). -/
def eventOf : MicroOp → Event
  | .setRs v => .rs v
  | .setD n => .d n
  | .setE v => .e v
  | .wait t => .delay t

/-- The effect of a micro-operation (R96). -/
def State.perform (s : State) : MicroOp → State
  | .setRs v => s.driveRs v
  | .setD n => s.driveD n
  | .setE v => s.driveE v
  | .wait t => s.emit (.delay t)

/-- `lcd_cw <- cw; lcd_pc <- 0` (R94): an LCD operation begins. -/
def State.beginOp (s : State) (cw : CmdWord) : State := { s with lcdCw := some cw, lcdPc := 0, waited := 0 }

/-- `lcd_pc <- lcd_pc + 1` (R94). -/
def State.nextMicro (s : State) : State := { s with lcdPc := s.lcdPc + 1, waited := 0 }

/-- `lcd_cw <- none; lcd_pc <- 0` (R94), with `lcd_ready <- 1` when the operation was `LCD_INIT` (R95). -/
def State.finishOp (s : State) (wasInit : Bool) : State :=
  { s with lcdReady := s.lcdReady || wasInit, lcdCw := none, lcdPc := 0, waited := 0 }

/-- One more tick of the `WAIT` under way has passed (R163). -/
def State.spendTick (s : State) : State := { s with waited := s.waited + 1 }

/-- The acceptance of `LCD_INIT` (R94): refused when `lcd_ready = 1` (R114). While an operation is in progress no
word is accepted, and the host goes on presenting it (R21; notes/assumptions/7.md). -/
def acceptInit (cw : CmdWord) (s : State) : Host.Outcome State Fault Refusal :=
  if s.lcdBusy then .next s
  else if s.lcdReady then .refused .secondInit
  else .next (s.beginOp cw)

/-- The acceptance of any other LCD operation (R94): refused when `lcd_ready = 0` (R113). -/
def acceptWhenReady (cw : CmdWord) (s : State) : Host.Outcome State Fault Refusal :=
  if s.lcdBusy then .next s
  else if s.lcdReady then .next (s.beginOp cw)
  else .refused .notInitialized

/-- Reset (R151, R153): every piece of the block's state takes its value of R31. The parameters and the inputs not
yet consumed are not the block's (R28; notes/assumptions/6.md). -/
def State.resetBlock (s : State) : State :=
  { State.reset with cfg := s.cfg, edges := s.edges, cmds := s.cmds, sched := s.sched }

/-- The environment's queues and the schedule, as a step consumes them (R28, R29). -/
def State.setSched (s : State) (turns : List Turn) : State := { s with sched := turns }
def State.setEdges (s : State) (rs : List EdgeRec) : State := { s with edges := rs }
def State.setCmds (s : State) (cws : List CmdWord) : State := { s with cmds := cws }

end Sys2Proof.Machine
end

