-- ==== Sys2Proof/Machine/Lcd.lean ====
section
/-! DEFINITION. Unit L, the LCD 4-bit protocol serializer (spec/41_lcd.md): the byte-transfer protocol, the
micro-program of each operation, and the acceptance of each operation. The micro-operations of an accepted operation
are performed by Sys2Proof/Machine/Sequencer.lean, one a step (R11, R94). -/

namespace Sys2Proof.Machine

/-- `pulse_e` (R98): "raised, held briefly, lowered, then a settle delay". -/
def pulseE (c : Params) : List MicroOp := [.setE true, .wait c.tEnHigh, .setE false, .wait c.tEnSettle]

/-- `write_nibble(n)` (R99). -/
def writeNibble (c : Params) (n : Nibble) : List MicroOp := [.setD n] ++ pulseE c

/-- `write_byte(rs, v)` (R100): "high nibble is always sent before low nibble". -/
def writeByte (c : Params) (rs : Bool) (v : Byte) : List MicroOp :=
  [.setRs rs] ++ writeNibble c (hiNibble v) ++ writeNibble c (loNibble v) ++ [.wait (postDelay c rs v)]

/-- `uprog(LCD_INIT)` (R104). -/
def uprogInit (c : Params) : List MicroOp :=
  [.wait c.tPwron, .setRs false]
    ++ writeNibble c initNibble1 ++ [.wait c.tInit1]
    ++ writeNibble c initNibble2 ++ [.wait c.tInit2]
    ++ writeNibble c initNibble3 ++ [.wait c.tInit3]
    ++ writeNibble c initNibble4 ++ [.wait c.tInit4]
    ++ writeByte c false c.cmdFunctionSet
    ++ writeByte c false c.cmdDisplayCtrl
    ++ writeByte c false c.cmdEntryMode
    ++ writeByte c false c.cmdClear

/-- `uprog(LCD_CMD byte)` (R105). -/
def uprogCmd (c : Params) (byte : Byte) : List MicroOp := writeByte c false byte

/-- `uprog(LCD_DATA byte)` (R106). -/
def uprogData (c : Params) (byte : Byte) : List MicroOp := writeByte c true byte

/-- `uprog(LCD_CURSOR col, row)` (R108). -/
def uprogCursor (c : Params) (col : BitVec 6) (row : BitVec 1) : List MicroOp :=
  writeByte c false (cursorByte c col row)

/-- `LCD_INIT` (R104). -/
def execLcdInit (s : State) : Host.Outcome State Fault Refusal := acceptInit wordLcdInit s

/-- `LCD_CMD byte` (R105). -/
def execLcdCmd (byte : Byte) (s : State) : Host.Outcome State Fault Refusal := acceptWhenReady (wordLcdCmd byte) s

/-- `LCD_DATA byte` (R106). -/
def execLcdData (byte : Byte) (s : State) : Host.Outcome State Fault Refusal := acceptWhenReady (wordLcdData byte) s

/-- `LCD_CURSOR col, row` (R108). -/
def execLcdCursor (col : BitVec 6) (row : BitVec 1) (s : State) : Host.Outcome State Fault Refusal :=
  acceptWhenReady (wordLcdCursor col row) s

end Sys2Proof.Machine
end

