-- ==== Sys2Proof/Machine/Quadrature.lean ====
section
/-! DEFINITION. Unit Q, the quadrature edge decoder and position accumulator (spec/40_quadrature.md). -/

namespace Sys2Proof.Machine

/-- `EDGE_A` (R74). The polarity is decoded and ignored (R76). -/
def execEdgeA (_p : Polarity) (a b : Bool) (s : State) : Host.Outcome State Fault Refusal :=
  .next (s.takeEdge .chanA a b)

/-- `EDGE_B` (R75). -/
def execEdgeB (_p : Polarity) (a b : Bool) (s : State) : Host.Outcome State Fault Refusal :=
  .next (s.takeEdge .chanB a b)

/-- `RDPOS` (R79): "taken only when `lcd_cw = none`", whatever `lcd_ready`. The value goes to the host on `rd_data`
and into the trace. While an LCD operation is in progress the word is not accepted (R21; notes/assumptions/7.md). -/
def execRdpos (s : State) : Host.Outcome State Fault Refusal :=
  if s.lcdBusy then .next s else .next (s.emit (.posRead s.position))

end Sys2Proof.Machine
end

