-- ==== Sys2Proof/Machine/Dispatch.lean ====
section
/-! DEFINITION. The meaning of every operation, one arm per row of spec/opcode_table.json. -/

namespace Sys2Proof.Machine

def exec (i : Instr) (s : State) : Host.Outcome State Fault Refusal :=
  match i with
  | .edgeA p a b => Sys2Proof.Machine.execEdgeA p a b s
  | .edgeB p a b => Sys2Proof.Machine.execEdgeB p a b s
  | .rdpos => Sys2Proof.Machine.execRdpos s
  | .lcdInit => Sys2Proof.Machine.execLcdInit s
  | .lcdCmd byte => Sys2Proof.Machine.execLcdCmd byte s
  | .lcdData byte => Sys2Proof.Machine.execLcdData byte s
  | .lcdCursor col row => Sys2Proof.Machine.execLcdCursor col row s

end Sys2Proof.Machine
end

