-- ==== Sys2Proof/Machine/Sequencer.lean ====
section
/-! DEFINITION. The LCD sequencer (spec/41_lcd.md R94): the micro-program of a command word, and the micro step. -/

namespace Sys2Proof.Machine

/-- The micro-program of an operation (R94); the operations of unit Q have none. -/
def microProgram (c : Params) : Instr → List MicroOp
  | .edgeA _ _ _ => []
  | .edgeB _ _ _ => []
  | .rdpos => []
  | .lcdInit => uprogInit c
  | .lcdCmd byte => uprogCmd c byte
  | .lcdData byte => uprogData c byte
  | .lcdCursor col row => uprogCursor c col row

/-- `uprog(cw)` (R94): "a constant function" of the command word; a reserved word has no micro-program. -/
def uprog (c : Params) (cw : CmdWord) : List MicroOp :=
  match decodeC cw with
  | .op i => microProgram c i
  | .reserved _ => []

/-- `decodeC(cw) = LCD_INIT` (R94). -/
def isInitWord (cw : CmdWord) : Bool := decodeC cw == .op .lcdInit

/-- The micro-operation at `lcd_pc` of the operation in progress, if there is one. -/
def State.currentMicro (s : State) : Option MicroOp :=
  match s.lcdCw with
  | none => none
  | some cw => (uprog s.cfg cw)[s.lcdPc]?

/-- The micro step (R94), "only when `lcd_cw != none`": perform the micro-operation at `lcd_pc`, then advance or
complete. -/
def microStep (cw : CmdWord) (s : State) : Host.Outcome State Fault Refusal :=
  match (uprog s.cfg cw)[s.lcdPc]? with
  | none => .fault .noMicroOperation
  | some m =>
    if s.lcdPc + 1 = (uprog s.cfg cw).length then .next ((s.perform m).finishOp (isInitWord cw))
    else .next (s.perform m).nextMicro

end Sys2Proof.Machine
end

