-- ==== Sys2Proof/Machine/Agents.lean ====
section
/-! DEFINITION. The steps of the two agents (spec/10_state.md R29) and of the clock tick (spec/40_quadrature.md R82,
spec/70_reset_and_hazards.md R163). -/

namespace Sys2Proof.Machine

/-- The acceptance of a command word by an idle foreground agent (R94): a reserved word is refused (R61). -/
def acceptWord (cw : CmdWord) (s : State) : Host.Outcome State Fault Refusal :=
  match decodeC cw with
  | .op i => exec i s
  | .reserved _ => .refused .reservedWord

/-- The edge agent's step (R29): consume the next edge event record and perform its operation whole. With no record
there is nothing to do (R31). -/
def edgeTurn (s : State) : Host.Outcome State Fault Refusal :=
  match s.edges with
  | [] => .next s
  | r :: rest => exec (decodeE r) (s.setEdges rest)

/-- The foreground agent's step (R29): the micro-operation at `lcd_pc` while an operation is in progress, else the
host's next command word. With neither there is nothing to do (R31). -/
def foregroundTurn (s : State) : Host.Outcome State Fault Refusal :=
  match s.lcdCw with
  | some cw => microStep cw s
  | none =>
    match s.cmds with
    | [] => .next s
    | cw :: rest => acceptWord cw (s.setCmds rest)

/-- The edge events the front end derives from the levels sampled in a tick (R82), in the order it performs them. -/
def frontEndRecords (s : State) (a b : Bool) : List EdgeRec :=
  if s.primed then
    (if a != s.aQ then [edgeRecord false (polarityOfBit a) a b] else []) ++
      (if b != s.bQ then [edgeRecord true (polarityOfBit b) a b] else [])
  else []

/-- The front end (R82): the first tick only primes; after it, `EDGE_A` for a change of channel A and then `EDGE_B` for
a change of channel B, with the same sampled pair. -/
def frontEnd (a b : Bool) (s : State) : State :=
  if s.primed then
    let s1 := if a != s.aQ then s.takeEdge .chanA a b else s
    let s2 := if b != s.bQ then s1.takeEdge .chanB a b else s1
    s2.latchSample a b
  else s.latchSample a b

/-- The foreground agent within a tick (R163): a word is accepted when `cmd_valid = cmd_ready = 1`; each `SET_*` takes
one tick; a `WAIT` takes at least `waitTicks` ticks, and its event is recorded in the last of them
(notes/assumptions/10.md). -/
def tickForeground (inp : TickIn) (s : State) : Host.Outcome State Fault Refusal :=
  match s.lcdCw with
  | some cw =>
    match s.currentMicro with
    | some (.wait t) =>
      if s.waited + 1 < waitTicks s.cfg t ∨ inp.hold = true then .next s.spendTick else microStep cw s
    | some (.setRs _) => microStep cw s
    | some (.setD _) => microStep cw s
    | some (.setE _) => microStep cw s
    | none => .fault .noMicroOperation
  | none => if inp.cmdValid then acceptWord inp.cmdWord s else .next s

/-- One tick of the clock. With `rst_n` low the block is in reset (R151). Else the foreground agent's part comes
first, so that "an `RDPOS` accepted in the same tick sees `position` as it was before the tick" (R82); then the front
end runs on the sampled levels. A command word presented while `rst_n` is low is ignored, neither accepted nor refused:
DESIGN CHOICE, the spec leaves it open (notes/assumptions/20.md). -/
def tick (inp : TickIn) (s : State) : Host.Outcome State Fault Refusal :=
  if inp.rstN then
    match tickForeground inp s with
    | .next s' => .next (frontEnd inp.encA inp.encB s')
    | .fault r => .fault r
    | .refused r => .refused r
  else .next s.resetBlock

/-- The turn of whoever the schedule names. -/
def takeTurn : Turn → State → Host.Outcome State Fault Refusal
  | .edge, s => edgeTurn s
  | .foreground, s => foregroundTurn s
  | .tick inp, s => tick inp s

/-- Present a word to an idle block and give its agent the next turn, as the environment does when it runs one word
(notes/assumptions/14.md). -/
def presentWord (pw : PortWord) (s : State) : State :=
  match pw with
  | .edge r => { s with edges := r :: s.edges, sched := .edge :: s.sched }
  | .cmd cw =>
    { s with cmds := cw :: s.cmds, sched := .foreground :: s.sched, lcdCw := none, lcdPc := 0, waited := 0 }

end Sys2Proof.Machine
end

