-- ==== Sys2Proof/Machine/Step.lean ====
section
/-! DEFINITION. The step (spec/00_scope.md R11): the next turn of the schedule, taken whole. -/

namespace Sys2Proof.Machine

/-- The agent the schedule names takes its step. With no turn left nothing moves: "The model fixes no schedule" (R29;
notes/assumptions/5.md). -/
def step (s : State) : Host.Outcome State Fault Refusal :=
  match s.sched with
  | [] => .next s
  | t :: rest => takeTurn t (s.setSched rest)

/-- `s` with a table word placed where the next step takes its operation from: the queue of the port the word arrives
on, with that port's agent scheduled and, for a command word, the sequencer idle (notes/assumptions/14.md). A number
that is no word of either port changes nothing. -/
def State.withFetchWord (s : State) (nbits w : Nat) : State :=
  match tableWord nbits w with
  | none => s
  | some pw => presentWord pw s

end Sys2Proof.Machine
end

