-- ==== Sys2Proof/Machine/Angle.lean ====
section
/-! DEFINITION. The companion function from position to angle (spec/42_angle.md): "not part of the hardware block", it
has no state, no port and no operation, and no step depends on it. -/

namespace Sys2Proof.Machine

/-- `angle(v) = v * 360 / P`, in degrees, an exact rational (R122, R124). -/
def angle (v : Int) : Rat := (v : Rat) * 360 / (modulus : Rat)

end Sys2Proof.Machine
end

