-- ==== Sys2Proof/Machine/Observe.lean ====
section
/-! DEFINITION. Readings of an observation trace (spec/41_lcd.md R103, R116; spec/20_memory.md R49;
spec/70_reset_and_hazards.md R164). No step depends on anything here. -/

namespace Sys2Proof.Machine

/-- What the scan of R103 carries: the three pin levels, and the frames latched so far. -/
structure Scan where
  rs : Bool
  d : Nibble
  e : Bool
  frames : List Frame
  deriving DecidableEq, Repr

/-- "Scan `obs` from the start with `rs = 0`, `d = 0`, `e = 0`" (R103). -/
def scanStart : Scan := ⟨false, 0#4, false, []⟩

/-- One event of the scan (R103): the falling edge of the enable line latches a frame. -/
def scanEvent (k : Scan) : Event → Scan
  | .rs v => { k with rs := v }
  | .d n => { k with d := n }
  | .e v => if v = false ∧ k.e = true then { k with e := v, frames := k.frames ++ [busFrame k.rs k.d] }
      else { k with e := v }
  | .delay _ => k
  | .posRead _ => k

def scan (obs : List Event) : Scan := obs.foldl scanEvent scanStart

/-- `latched(obs)` (R103): the frames the controller takes from the pins. -/
def latched (obs : List Event) : List Frame := (scan obs).frames

/-- The pin-event subsequence of a trace, "all events but `PosRead`" (R49). -/
def pinEvents (obs : List Event) : List Event :=
  obs.filter fun ev => match ev with
    | .posRead _ => false
    | .rs _ => true
    | .e _ => true
    | .d _ => true
    | .delay _ => true

/-- The wait a micro-operation guarantees, in microseconds (R107). -/
def MicroOp.delay : MicroOp → Nat
  | .wait t => t
  | .setRs _ => 0
  | .setD _ => 0
  | .setE _ => 0

/-- The sum of the delays of a micro-program (R116, R164). -/
def delaySum (prog : List MicroOp) : Nat := (prog.map MicroOp.delay).sum

/-- The number of enable pulses of a micro-program (R116). -/
def enablePulses (prog : List MicroOp) : Nat := prog.count (.setE true)

/-- The level of the enable line after a micro-program that starts with it at `e`. -/
def enableAfter (e : Bool) : List MicroOp → Bool
  | [] => e
  | .setE v :: rest => enableAfter v rest
  | .setRs _ :: rest => enableAfter e rest
  | .setD _ :: rest => enableAfter e rest
  | .wait _ :: rest => enableAfter e rest

/-- R102 read over a micro-program that starts with the enable line at `e`: the selector and the data lines are written
only while it is low; between a rise and the next fall there is exactly one micro-operation, a `WAIT`; it ends low. -/
def busStable : Bool → List MicroOp → Bool
  | e, [] => !e
  | e, .setRs _ :: rest => !e && busStable e rest
  | e, .setD _ :: rest => !e && busStable e rest
  | e, .wait _ :: rest => !e && busStable e rest
  | e, .setE true :: .wait _ :: .setE false :: rest => !e && busStable false rest
  | _, .setE _ :: _ => false

end Sys2Proof.Machine
end

