-- ==== Sys2Proof/Machine/Pseudo.lean ====
section
/-! DEFINITION. The pseudo-operations (spec/30_encoding.md R66) and the assembler syntax of the operations (R65). -/

namespace Sys2Proof.Machine

/-- The expansion of a pseudo-operation (R66, R109, R110, R111). -/
def expand (c : Params) : Pseudo → List Instr
  | .print text => text.map .lcdData
  | .clear => [.lcdCmd c.cmdClear]
  | .frame text => [.lcdCmd c.cmdClear, .lcdCursor 0#6 0#1] ++ text.map .lcdData

/-- The command word of an operation of the command port (R59). -/
def commandWord (i : Instr) : Option CmdWord :=
  match encode i with
  | .edge _ => none
  | .cmd cw => some cw

/-- The command words the host issues for a pseudo-operation, in order (R109). -/
def pseudoWords (c : Params) (p : Pseudo) : List CmdWord := (expand c p).filterMap commandWord

/-- The micro-operations of a pseudo-operation, those of its operations in order (R109). -/
def pseudoProgram (c : Params) (p : Pseudo) : List MicroOp := (expand c p).flatMap (microProgram c)

/-- One hexadecimal digit, upper case. -/
def hexDigit (n : Nibble) : String :=
  ["0", "1", "2", "3", "4", "5", "6", "7", "8", "9", "A", "B", "C", "D", "E", "F"][n.toNat]?.getD ""

/-- A byte as R9 writes a hexadecimal literal. -/
def hexByte (v : Byte) : String := "0x" ++ hexDigit (hiNibble v) ++ hexDigit (loNibble v)

/-- `R` (rising) or `F` (falling), and `0` or `1` for a level (R65). -/
def asmPolarity : Polarity → String
  | .rising => "R"
  | .falling => "F"
def asmLevel (v : Bool) : String := if v then "1" else "0"

/-- The assembler line of an operation (R65). -/
def asm : Instr → String
  | .edgeA p a b => "EDGE_A " ++ asmPolarity p ++ ", " ++ asmLevel a ++ ", " ++ asmLevel b
  | .edgeB p a b => "EDGE_B " ++ asmPolarity p ++ ", " ++ asmLevel a ++ ", " ++ asmLevel b
  | .rdpos => "RDPOS"
  | .lcdInit => "LCD_INIT"
  | .lcdCmd byte => "LCD_CMD " ++ hexByte byte
  | .lcdData byte => "LCD_DATA " ++ hexByte byte
  | .lcdCursor col row => "LCD_CURSOR " ++ toString col.toNat ++ ", " ++ toString row.toNat

end Sys2Proof.Machine
end

