-- ==== Sys2Proof/Safety.lean ====
section
/-! DEFINITION. What counts as a safe run: the invariant the block keeps from reset on, and the obligations the host
must meet (spec/70_reset_and_hazards.md R155). -/

namespace Sys2Proof.Machine

/-- R15: `-2048 <= position <= 2047`. -/
def State.positionInRange (s : State) : Prop := -half ≤ s.position ∧ s.position < half

/-- The sequencer's part of the invariant (R20, R21, R22, R95, R102): idle, it points at 0 and the enable line is low;
busy, it holds an LCD operation and points inside its micro-program, the enable line is where the micro-operations
performed so far have left it, and `lcd_ready` is 0 exactly while the operation is `LCD_INIT`. -/
def State.sequencerOk (s : State) : Prop :=
  match s.lcdCw with
  | none => s.lcdPc = 0 ∧ s.lcdE = false
  | some cw =>
    match decodeC cw with
    | .reserved _ => False
    | .op i =>
      i.isLcdOp = true ∧ s.lcdPc < (microProgram s.cfg i).length ∧
        s.lcdE = enableAfter false ((microProgram s.cfg i).take s.lcdPc) ∧
        s.lcdReady = !(i == .lcdInit)

/-- Each pin "holds the last level written to it until the next write" (R19): the levels are those of the scan of the
trace (R103). -/
def State.pinsMatchTrace (s : State) : Prop :=
  s.lcdRs = (scan s.obs).rs ∧ s.lcdD = (scan s.obs).d ∧ s.lcdE = (scan s.obs).e

/-- The invariant of the block. -/
structure State.Inv (s : State) : Prop where
  position : s.positionInRange
  sequencer : s.sequencerOk
  pins : s.pinsMatchTrace

/-- What R155 asks of the host, over the command words not yet accepted: every word legal, `LCD_INIT` once and before
any other LCD operation. `ready` says whether an `LCD_INIT` has been accepted already. -/
def hostContract (ready : Bool) : List CmdWord → Bool
  | [] => true
  | cw :: rest =>
    match decodeC cw with
    | .reserved _ => false
    | .op i =>
      if i.isLcdOp then
        if i = .lcdInit then !ready && hostContract true rest
        else ready && hostContract ready rest
      else hostContract ready rest

/-- The host meets its obligations from this state on. An operation in progress counts as an initialised driver: it is
either `LCD_INIT` itself or was accepted when `lcd_ready = 1`. -/
def State.hostOk (s : State) : Prop := hostContract (s.lcdReady || s.lcdBusy) s.cmds = true

/-- The schedule names only the two agents of R29: no turn of it is a clock tick. -/
def eventLevel (turns : List Turn) : Bool :=
  turns.all fun t => match t with
    | .edge => true
    | .foreground => true
    | .tick _ => false

/-- What unit L's steps read and write, with the words it has yet to accept: everything but unit Q's state, the trace,
the edge records and the schedule (R49). -/
structure LcdView where
  rs : Bool
  e : Bool
  d : Nibble
  ready : Bool
  cw : Option CmdWord
  pc : Nat
  waited : Nat
  cfg : Params
  cmds : List CmdWord
  deriving DecidableEq, Repr

def State.lcdView (s : State) : LcdView :=
  ⟨s.lcdRs, s.lcdE, s.lcdD, s.lcdReady, s.lcdCw, s.lcdPc, s.waited, s.cfg, s.cmds⟩

/-- `n` steps of the machine, stopping at the first fault or refusal. -/
def runSteps : Nat → State → Host.Outcome State Fault Refusal
  | 0, s => .next s
  | n + 1, s =>
    match step s with
    | .next s' => runSteps n s'
    | .fault r => .fault r
    | .refused r => .refused r

/-- `n` turns of the foreground agent, or of the edge agent. -/
def foregroundTurns (n : Nat) : List Turn := List.replicate n .foreground
def edgeTurns (n : Nat) : List Turn := List.replicate n .edge

/-- The net movement of a list of edge records (R78 item 3). -/
def netDelta (rs : List EdgeRec) : Int := (rs.map edgeDelta).sum

/-- The closed form of R78 item 3: a position moved by `n` pulses, modulo `P`, in `[-HALF, HALF)`. -/
def movedBy (p n : Int) : Int := (p + n + half) % modulus - half

end Sys2Proof.Machine
end

