-- ==== Sys2Proof/WellFormed.lean ====
section
/-! DEFINITION. The checks the spec names: the opcode table's match and mask, which says a word is legal (R59, R61);
the well-formedness of an edge event record (R62); the constraints on the parameters (R7). None of them gates a step
but the first, and that one through the decoder: the sampled levels of an ill-formed record are used like any other's. -/

namespace Sys2Proof

/-- A row of the opcode map of R59 for format C. -/
structure OpRow where
  mnemonic : String
  pattern : CmdWord
  mask : CmdWord
  deriving DecidableEq, Repr

/-- The format C rows of R59. -/
def commandRows : List OpRow :=
  [⟨"RDPOS", 0x5000#16, 0xFFFF#16⟩, ⟨"LCD_INIT", 0x1000#16, 0xFFFF#16⟩, ⟨"LCD_CMD", 0x2000#16, 0xFF00#16⟩,
   ⟨"LCD_DATA", 0x3000#16, 0xFF00#16⟩, ⟨"LCD_CURSOR", 0x4000#16, 0xFF80#16⟩]

/-- "A word or record `w` selects a row when `w AND mask == match`" (R59). -/
def OpRow.selects (row : OpRow) (cw : CmdWord) : Bool := (cw &&& row.mask) == row.pattern

/-- The word matches a row of R59; a word that matches none is reserved (R61). -/
def commandWordLegal (cw : CmdWord) : Bool := commandRows.any (·.selects cw)

/-- R62: a record is well-formed "when the sampled level of the triggering channel agrees with the polarity". Every
value of every other operation's operands is legal (R60). -/
def Instr.wellFormed : Instr → Bool
  | .edgeA p a _ => a == bitOfPolarity p
  | .edgeB p _ b => b == bitOfPolarity p
  | .rdpos => true
  | .lcdInit => true
  | .lcdCmd _ => true
  | .lcdData _ => true
  | .lcdCursor _ _ => true

/-- The constraints R7 and R163 put on the parameters: `POS_W >= 13`, and a frequency that is a fraction. -/
def Params.wellFormed (c : Params) : Bool := decide (13 ≤ c.posW) && decide (0 < c.clkDen)

end Sys2Proof
end

