-- ==== Sys2Proof/Certificates/Slice0/Obligations.lean ====
section
/-! DEFINITION. The statements for the provers. Each docstring names the rule of spec/ it formalises. -/

open Sys2Proof Sys2Proof.Machine

/-! ### Encoding -/

/-- R59, R60, R63: decoding the word of an operation gives the operation back, with every operand. -/
def Obligations.DecodeOfEncodeIsTheOperation : Prop := ∀ i : Instr, decode (encode i) = .op i

/-- R59, R63: each word has one meaning, and no bit of it is dropped. -/
def Obligations.EncodeOfDecodeIsTheWord : Prop := ∀ (pw : PortWord) (i : Instr), decode pw = .op i → encode i = pw

/-- R61: which command words are reserved, and that an idle block refuses one. -/
def Obligations.ReservedWordsAreRefused : Prop :=
  ∀ cw : CmdWord,
    ((∃ why, decodeC cw = .reserved why) ↔ commandWordLegal cw = false) ∧
    ((∃ why, decodeC cw = .reserved why) ↔
      (opcodeField cw = 0x0#4 ∨ 0x6#4 ≤ opcodeField cw ∨ zeroField cw ≠ 0x0#4 ∨
        ((opcodeField cw = 0x1#4 ∨ opcodeField cw = 0x5#4) ∧ payloadField cw ≠ 0x00#8) ∨
        (opcodeField cw = 0x4#4 ∧ cw.getLsbD 7 = true))) ∧
    ((∃ why, decodeC cw = .reserved why) → ∀ (s : State) (turns : List Turn) (rest : List CmdWord),
      s.sched = .foreground :: turns → s.lcdCw = none → s.cmds = cw :: rest → step s = .refused .reservedWord)

/-- spec/95_test_vectors.md 2.11 and 2.1: words written out bit by bit, and what they stand for. -/
def Obligations.WrittenOutWordsDecode : Prop :=
  decodeC 0b0001000000000000#16 = .op .lcdInit ∧
  decodeC 0b0010000000000001#16 = .op (.lcdCmd 0x01#8) ∧
  decodeC 0b0011000001000001#16 = .op (.lcdData 0x41#8) ∧
  decodeC 0b0100000001000101#16 = .op (.lcdCursor 5#6 1#1) ∧
  decodeC 0b0101000000000000#16 = .op .rdpos ∧
  decodeE 0b0110#4 = .edgeA .rising true false ∧
  decodeE 0b1010#4 = .edgeB .falling true false

/-- R62: all 16 edge records are legal and run on their sampled levels, the ill-formed ones too; a record is
well-formed when the sampled level of the triggering channel agrees with the polarity, and which eight are. -/
def Obligations.EveryEdgeRecordRuns : Prop :=
  (∀ (r : EdgeRec) (s : State), ∃ i, decode (.edge r) = .op i ∧
    exec i s = .next { s with position := wrap (s.position +
      dir (if r.getLsbD 3 then .chanB else .chanA) (r.getLsbD 1) (r.getLsbD 0)) }) ∧
  (∀ r : EdgeRec, (decodeE r).wellFormed = true ↔
    (r.getLsbD 3 = false ∧ r.getLsbD 1 = r.getLsbD 2) ∨ (r.getLsbD 3 = true ∧ r.getLsbD 0 = r.getLsbD 2)) ∧
  (∀ r : EdgeRec, (decodeE r).wellFormed = true ↔ r ∈ [0x0#4, 0x1#4, 0x6#4, 0x7#4, 0x8#4, 0xA#4, 0xD#4, 0xF#4])

/-! ### Unit Q -/

/-- R74: `EDGE_A`, its encoding, its whole effect and its corner cases. -/
def Obligations.EdgeAMovesPosition : Prop :=
  ∀ (p : Polarity) (a b : Bool) (s : State),
    decodeE (0#1 ++ BitVec.ofBool (bitOfPolarity p) ++ BitVec.ofBool a ++ BitVec.ofBool b) = .edgeA p a b ∧
    exec (.edgeA p a b) s = .next { s with position := wrap (s.position + (if a = b then 1 else -1)) } ∧
    (s.position = 2047 → a = b → exec (.edgeA p a b) s = .next { s with position := -2048 }) ∧
    (s.position = -2048 → a ≠ b → exec (.edgeA p a b) s = .next { s with position := 2047 })

/-- R75: `EDGE_B`, its encoding, its whole effect and its corner cases; for the same sampled levels it moves the
position against `EDGE_A`. -/
def Obligations.EdgeBMovesPosition : Prop :=
  ∀ (p : Polarity) (a b : Bool) (s : State),
    decodeE (1#1 ++ BitVec.ofBool (bitOfPolarity p) ++ BitVec.ofBool a ++ BitVec.ofBool b) = .edgeB p a b ∧
    exec (.edgeB p a b) s = .next { s with position := wrap (s.position + (if a ≠ b then 1 else -1)) } ∧
    (s.position = 2047 → a ≠ b → exec (.edgeB p a b) s = .next { s with position := -2048 }) ∧
    (s.position = -2048 → a = b → exec (.edgeB p a b) s = .next { s with position := 2047 }) ∧
    (∀ p' : Polarity, exec (.edgeA p' a b) s = .next { s with position := wrap (s.position - dir .chanB a b) })

/-- R72: the 4x decode table. -/
def Obligations.DirectionDecodeTable : Prop :=
  (∀ a b : Bool, dir .chanA a b = (if a = b then 1 else -1) ∧ dir .chanB a b = (if a ≠ b then 1 else -1)) ∧
  (∀ a b : Bool, (dir .chanA a b = 1 ↔ (a ^^ b ^^ false) = false) ∧ (dir .chanB a b = 1 ↔ (a ^^ b ^^ true) = false))

/-- R73: the wrap correction. -/
def Obligations.WrapIsOneCorrection : Prop :=
  (∀ v : Int, wrap v = (if v < -2048 then v + 4096 else if 2048 ≤ v then v - 4096 else v)) ∧
  (∀ v : Int, -2049 ≤ v → v ≤ 2048 → wrap v = (v + 2048) % 4096 - 2048 ∧ (wrap v ≠ v ↔ v = -2049 ∨ v = 2048)) ∧
  wrap (-2049) = 2047 ∧ wrap 2048 = -2048 ∧ wrap 5000 = 904 ∧ wrap 7000 = 2904

/-- R78 items 1, 2 and 5: one edge record from a position in range. -/
def Obligations.EdgeStepKeepsRangeAndMovesByOne : Prop :=
  ∀ (r : EdgeRec) (s t : State), s.positionInRange → exec (decodeE r) s = .next t →
    t.positionInRange ∧ t.position ≠ s.position ∧
    (t.position - s.position = 1 ∨ t.position - s.position = -1 ∨
      (s.position = 2047 ∧ t.position = -2048) ∨ (s.position = -2048 ∧ t.position = 2047)) ∧
    (∀ (r' : EdgeRec) (u : State), edgeDelta r' = -edgeDelta r → exec (decodeE r') t = .next u → u = s)

/-- R78 item 3: a sequence of edge records, run from any position in range, gives the closed form. -/
def Obligations.EdgeSequenceGivesClosedForm : Prop :=
  ∀ s : State, s.positionInRange → s.sched = edgeTurns s.edges.length →
    runSteps s.edges.length s =
      .next { s with position := (s.position + netDelta s.edges + 2048) % 4096 - 2048, edges := [], sched := [] }

/-- R78 item 4 and R80: histories whose delta sums differ by a multiple of 4096 end at the same position, and one
whose sum is a multiple of 4096 ends where it began; 4096 edges in one direction are such a history. -/
def Obligations.WholeTurnsAreInvisible : Prop :=
  (∀ (s s' t t' : State), s.positionInRange → s'.position = s.position →
    s.sched = edgeTurns s.edges.length → s'.sched = edgeTurns s'.edges.length →
    (∃ k : Int, netDelta s'.edges = netDelta s.edges + 4096 * k) →
    runSteps s.edges.length s = .next t → runSteps s'.edges.length s' = .next t' → t'.position = t.position) ∧
  (∀ (s t : State), s.positionInRange → s.sched = edgeTurns s.edges.length →
    (∃ k : Int, netDelta s.edges = 4096 * k) → runSteps s.edges.length s = .next t → t.position = s.position) ∧
  (∀ rs : List EdgeRec, rs.length = 4096 → (∀ r ∈ rs, edgeDelta r = 1) → netDelta rs = 4096 * 1) ∧
  (∀ rs : List EdgeRec, rs.length = 4096 → (∀ r ∈ rs, edgeDelta r = -1) → netDelta rs = 4096 * (-1))

/-- R81: one edge operation per channel with the same sampled pair, in either order, with anything between them that
leaves `position` alone, ends where it began. -/
def Obligations.BothChannelsCancel : Prop :=
  (∀ a b : Bool, dir .chanA a b = -dir .chanB a b) ∧
  (∀ (p p' : Polarity) (a b : Bool) (s s1 s2 t : State), s.positionInRange →
    exec (.edgeA p a b) s = .next s1 → s2.position = s1.position → exec (.edgeB p' a b) s2 = .next t →
    t.position = s.position) ∧
  (∀ (p p' : Polarity) (a b : Bool) (s s1 s2 t : State), s.positionInRange →
    exec (.edgeB p a b) s = .next s1 → s2.position = s1.position → exec (.edgeA p' a b) s2 = .next t →
    t.position = s.position)

/-- R79, R30: `RDPOS`, its encoding, its effect whatever `lcd_ready`, the value on `rd_data`, and its corner cases.
That `rd_data` follows `position` in every state is this model's reading (notes/assumptions/18.md). -/
def Obligations.RdposReadsPosition : Prop :=
  decodeC 0x5000#16 = .op .rdpos ∧
  (∀ s : State, s.lcdCw = none → exec .rdpos s = .next { s with obs := s.obs ++ [.posRead s.position] }) ∧
  (∀ s : State, s.positionInRange → 13 ≤ s.cfg.posW → s.rdData.toInt = s.position) ∧
  (∀ s : State, s.cfg.posW = 16 → (s.position = -2048 → s.rdData.toNat = 0xF800) ∧
    (s.position = -1 → s.rdData.toNat = 0xFFFF) ∧ (s.position = 2047 → s.rdData.toNat = 0x07FF)) ∧
  exec .rdpos State.reset = .next { State.reset with obs := [.posRead 0] }

/-- R16: only an edge record, a clock tick or reset moves `position`; no foreground operation does. -/
def Obligations.OnlyEdgesMovePosition : Prop :=
  (∀ s t : State, step s = .next t → t.position ≠ s.position →
    (∃ turns, s.sched = .edge :: turns ∧ s.edges ≠ []) ∨ (∃ inp turns, s.sched = .tick inp :: turns)) ∧
  (∀ (i : Instr) (s t : State), i.isEdge = false → exec i s = .next t → t.position = s.position)

/-- R46, R49: in every interleaving of the two agents, `position` is the closed form of the edge records consumed so
far, and every `RDPOS` returned the closed form of a prefix of them. -/
def Obligations.ReadsSeeConsistentPriorPositions : Prop :=
  ∀ (n : Nat) (s t : State), s.positionInRange → eventLevel s.sched = true → runSteps n s = .next t →
    ∃ (k : Nat) (new : List Event), k ≤ s.edges.length ∧ t.edges = s.edges.drop k ∧
      t.position = movedBy s.position (netDelta (s.edges.take k)) ∧ t.obs = s.obs ++ new ∧
      ∀ v, .posRead v ∈ new → ∃ j, j ≤ k ∧ v = movedBy s.position (netDelta (s.edges.take j))

/-- R85: the two clean quadrature cycles. -/
def Obligations.CleanQuadratureCycles : Prop :=
  ([0xA#4, 0x0#4, 0xD#4, 0x7#4].map edgeDelta = [1, 1, 1, 1]) ∧
  ([0x1#4, 0x8#4, 0x6#4, 0xF#4].map edgeDelta = [-1, -1, -1, -1]) ∧
  (∀ r ∈ [0xA#4, 0x0#4, 0xD#4, 0x7#4, 0x1#4, 0x8#4, 0x6#4, 0xF#4], (decodeE r).wellFormed = true)

/-! ### Unit L: acceptance -/

/-- R104, R94: an idle, uninitialised block accepts `LCD_INIT`, and nothing else changes. -/
def Obligations.LcdInitIsAccepted : Prop :=
  ∀ s : State, s.lcdCw = none → s.lcdReady = false →
    exec .lcdInit s = .next { s with lcdCw := some 0x1000#16, lcdPc := 0, waited := 0 }

/-- R105, R106, R108, R94: an idle, ready block accepts the other LCD operations, and nothing else changes. -/
def Obligations.ReadyBlockAcceptsLcdOperations : Prop :=
  ∀ s : State, s.lcdCw = none → s.lcdReady = true →
    (∀ byte, exec (.lcdCmd byte) s = .next { s with lcdCw := some (0x20#8 ++ byte), lcdPc := 0, waited := 0 }) ∧
    (∀ byte, exec (.lcdData byte) s = .next { s with lcdCw := some (0x30#8 ++ byte), lcdPc := 0, waited := 0 }) ∧
    (∀ col row, exec (.lcdCursor col row) s =
      .next { s with lcdCw := some (0x40#8 ++ 0#1 ++ row ++ col), lcdPc := 0, waited := 0 })

/-- R113: an LCD operation other than `LCD_INIT` before it is refused. -/
def Obligations.LcdBeforeInitIsRefused : Prop :=
  ∀ s : State, s.lcdCw = none → s.lcdReady = false →
    (∀ byte, exec (.lcdCmd byte) s = .refused .notInitialized) ∧
    (∀ byte, exec (.lcdData byte) s = .refused .notInitialized) ∧
    (∀ col row, exec (.lcdCursor col row) s = .refused .notInitialized)

/-- R114: a second `LCD_INIT` is refused. -/
def Obligations.SecondInitIsRefused : Prop :=
  ∀ s : State, s.lcdCw = none → s.lcdReady = true → exec .lcdInit s = .refused .secondInit

/-- R21: while an LCD operation is in progress no command word is accepted, refused or consumed. -/
def Obligations.BusyBlockAcceptsNothing : Prop :=
  (∀ (i : Instr) (s : State), s.lcdBusy = true → i.isEdge = false → exec i s = .next s) ∧
  (∀ (s t : State) (turns : List Turn), s.lcdBusy = true → s.sched = .foreground :: turns → step s = .next t →
    t.cmds = s.cmds)

/-! ### Unit L: micro-programs -/

/-- R96: the effect of each micro-operation. -/
def Obligations.MicroOperationEffects : Prop :=
  ∀ s : State,
    (∀ v, s.perform (.setRs v) = { s with lcdRs := v, obs := s.obs ++ [.rs v] }) ∧
    (∀ n, s.perform (.setD n) = { s with lcdD := n, obs := s.obs ++ [.d n] }) ∧
    (∀ v, s.perform (.setE v) = { s with lcdE := v, obs := s.obs ++ [.e v] }) ∧
    (∀ t, s.perform (.wait t) = { s with obs := s.obs ++ [.delay t] })

/-- R94: the acceptance step and the micro step of the foreground agent. The field `waited` is the model's own
(notes/assumptions/10.md). -/
def Obligations.SequencerAcceptsAndSteps : Prop :=
  (∀ (s : State) (turns : List Turn) (cw : CmdWord) (rest : List CmdWord),
    s.sched = .foreground :: turns → s.lcdCw = none → s.cmds = cw :: rest →
    (∀ why, decodeC cw = .reserved why → step s = .refused .reservedWord) ∧
    (decodeC cw = .op .rdpos →
      step s = .next { s with sched := turns, cmds := rest, obs := s.obs ++ [.posRead s.position] }) ∧
    (decodeC cw = .op .lcdInit → s.lcdReady = true → step s = .refused .secondInit) ∧
    (decodeC cw = .op .lcdInit → s.lcdReady = false →
      step s = .next { s with sched := turns, cmds := rest, lcdCw := some cw, lcdPc := 0, waited := 0 }) ∧
    (∀ i, decodeC cw = .op i → i.isLcdOp = true → i ≠ .lcdInit → s.lcdReady = false →
      step s = .refused .notInitialized) ∧
    (∀ i, decodeC cw = .op i → i.isLcdOp = true → i ≠ .lcdInit → s.lcdReady = true →
      step s = .next { s with sched := turns, cmds := rest, lcdCw := some cw, lcdPc := 0, waited := 0 })) ∧
  (∀ (s : State) (turns : List Turn) (cw : CmdWord) (i : Instr) (m : MicroOp),
    s.sched = .foreground :: turns → s.lcdCw = some cw → decodeC cw = .op i →
    (microProgram s.cfg i)[s.lcdPc]? = some m →
    step s =
      .next (if s.lcdPc + 1 = (microProgram s.cfg i).length then
        { (s.perform m) with sched := turns, lcdReady := s.lcdReady || (i == .lcdInit), lcdCw := none, lcdPc := 0,
                             waited := 0 }
      else { (s.perform m) with sched := turns, lcdPc := s.lcdPc + 1, waited := 0 })) ∧
  (∀ (c : Params) (i : Instr), i.isLcdOp = true → 12 ≤ (microProgram c i).length)

/-- R98, R99, R100, R105, R106: the enable pulse, the nibble and the byte, written out, and `LCD_CMD` and `LCD_DATA`
as byte writes. -/
def Obligations.ByteTransferProgram : Prop :=
  ∀ (c : Params) (rs : Bool) (n : Nibble) (v : Byte),
    pulseE c = [.setE true, .wait c.tEnHigh, .setE false, .wait c.tEnSettle] ∧
    writeNibble c n = [.setD n, .setE true, .wait c.tEnHigh, .setE false, .wait c.tEnSettle] ∧
    writeByte c rs v =
      [.setRs rs, .setD (v.extractLsb' 4 4), .setE true, .wait c.tEnHigh, .setE false, .wait c.tEnSettle,
        .setD (v.extractLsb' 0 4), .setE true, .wait c.tEnHigh, .setE false, .wait c.tEnSettle,
        .wait (postDelay c rs v)] ∧
    microProgram c (.lcdCmd v) = writeByte c false v ∧
    microProgram c (.lcdData v) = writeByte c true v

/-- R101: the command-dependent settle delay, with `CMD_CLEAR = 0x01`. That `0x02` and `0x03` take the long delay is
the spec's own choice, "from general knowledge, not in source" (notes/assumptions/13.md). -/
def Obligations.PostDelayRule : Prop :=
  ∀ (c : Params) (rs : Bool) (v : Byte), c.cmdClear = 0x01#8 →
    postDelay c rs v = (if rs = false ∧ v ∈ [0x01#8, 0x02#8, 0x03#8] then c.tClear else c.tChar)

/-- R104: the cold-start handshake's micro-program. -/
def Obligations.InitProgram : Prop :=
  ∀ c : Params,
    microProgram c .lcdInit =
      [.wait c.tPwron, .setRs false] ++ writeNibble c 0x3#4 ++ [.wait c.tInit1] ++ writeNibble c 0x3#4 ++
        [.wait c.tInit2] ++ writeNibble c 0x3#4 ++ [.wait c.tInit3] ++ writeNibble c 0x2#4 ++ [.wait c.tInit4] ++
        writeByte c false c.cmdFunctionSet ++ writeByte c false c.cmdDisplayCtrl ++
        writeByte c false c.cmdEntryMode ++ writeByte c false c.cmdClear ∧
    (microProgram c .lcdInit).length = 74

/-- R58, R108: the display address and the set-address byte; `LCD_CURSOR` has the micro-program of `LCD_CMD` of that
byte, and its post delay is the short one. -/
def Obligations.CursorSendsItsAddress : Prop :=
  ∀ (c : Params) (col : BitVec 6) (row : BitVec 1),
    (ddramAddr col row).toNat = (if row = 0#1 then 0x00 else 0x40) + col.toNat ∧
    microProgram c (.lcdCursor col row) = microProgram c (.lcdCmd (cursorByte c col row)) ∧
    (c.cmdSetDdram = 0x80#8 → cursorByte c col row = 1#1 ++ row ++ col) ∧
    (c.cmdSetDdram = 0x80#8 → c.cmdClear = 0x01#8 → postDelay c false (cursorByte c col row) = c.tChar) ∧
    (ddramVisible (ddramAddr col row) = true ↔ col.toNat < 16)

/-- R100, R104, R105, R106, R108, R95: accepted by an idle block and given the turns it needs, an LCD operation emits
exactly its micro-program's events in order, leaves the driver ready and idle, the pins at the levels last written
with the enable line low, and everything else as it was but for `waited`, which is the model's own
(notes/assumptions/10.md). -/
def Obligations.LcdOperationRunsToCompletion : Prop :=
  ∀ (s : State) (i : Instr) (cw : CmdWord) (rest : List CmdWord), s.Inv → s.lcdCw = none → s.cmds = cw :: rest →
    decodeC cw = .op i → i.isLcdOp = true → s.lcdReady = !(i == .lcdInit) →
    s.sched = foregroundTurns ((microProgram s.cfg i).length + 1) →
    runSteps ((microProgram s.cfg i).length + 1) s =
      .next { s with
        obs := s.obs ++ (microProgram s.cfg i).map eventOf
        lcdRs := (scan (s.obs ++ (microProgram s.cfg i).map eventOf)).rs
        lcdD := (scan (s.obs ++ (microProgram s.cfg i).map eventOf)).d
        lcdE := false, lcdReady := true, waited := 0, cmds := rest, sched := [] }

/-- R66, R109, R110, R111: what each pseudo-operation expands to; and its command words, issued to a ready block, make
it emit the events of each operation in order and nothing else. -/
def Obligations.PseudoOperationRunsInOrder : Prop :=
  (∀ (c : Params) (text : List Byte),
    expand c (.print text) = text.map .lcdData ∧
    expand c .clear = [.lcdCmd c.cmdClear] ∧
    expand c (.frame text) = [.lcdCmd c.cmdClear, .lcdCursor 0#6 0#1] ++ text.map .lcdData) ∧
  ∀ (s : State) (p : Pseudo), s.Inv → s.lcdCw = none → s.lcdReady = true → s.cmds = pseudoWords s.cfg p →
    s.sched = foregroundTurns ((expand s.cfg p).length + (pseudoProgram s.cfg p).length) →
    ∃ t, runSteps ((expand s.cfg p).length + (pseudoProgram s.cfg p).length) s = .next t ∧
      t.obs = s.obs ++ (pseudoProgram s.cfg p).map eventOf ∧ t.lcdCw = none ∧ t.lcdPc = 0 ∧ t.lcdReady = true ∧
      t.lcdE = false ∧ t.cmds = [] ∧ t.position = s.position ∧ t.edges = s.edges

/-- R57, R103: after any trace, the transfer of a byte latches exactly its high nibble and then its low nibble, under
the selector level of the whole transfer. -/
def Obligations.ByteTransferLatchesTwoFrames : Prop :=
  ∀ (c : Params) (obs : List Event) (rs : Bool) (v : Byte),
    latched (obs ++ (writeByte c rs v).map eventOf) =
      latched obs ++ [busFrame rs (v.extractLsb' 4 4), busFrame rs (v.extractLsb' 0 4)]

/-- R56, R57: the DisplayCommand inside a command word says which two frames the operation latches. -/
def Obligations.DisplayCommandSaysTheFrames : Prop :=
  ∀ (c : Params) (obs : List Event) (byte : Byte),
    dispCmdOfWord (wordLcdCmd byte) = 0#1 ++ byte ∧ dispCmdOfWord (wordLcdData byte) = 1#1 ++ byte ∧
    latched (obs ++ (microProgram c (.lcdCmd byte)).map eventOf) =
      latched obs ++ framesOfDispCmd (dispCmdOfWord (wordLcdCmd byte)) ∧
    latched (obs ++ (microProgram c (.lcdData byte)).map eventOf) =
      latched obs ++ framesOfDispCmd (dispCmdOfWord (wordLcdData byte))

/-- R104: after any trace, `LCD_INIT` latches the four reset nibbles and then the four commands, high nibble first;
with the default command bytes these are the twelve frames of the worked example. -/
def Obligations.InitLatchesTwelveFrames : Prop :=
  ∀ (c : Params) (obs : List Event),
    latched (obs ++ (microProgram c .lcdInit).map eventOf) =
      latched obs ++ ([0x3#4, 0x3#4, 0x3#4, 0x2#4,
        hiNibble c.cmdFunctionSet, loNibble c.cmdFunctionSet, hiNibble c.cmdDisplayCtrl, loNibble c.cmdDisplayCtrl,
        hiNibble c.cmdEntryMode, loNibble c.cmdEntryMode, hiNibble c.cmdClear, loNibble c.cmdClear].map
          (busFrame false)) ∧
    (c.cmdFunctionSet = 0x28#8 → c.cmdDisplayCtrl = 0x0C#8 → c.cmdEntryMode = 0x06#8 → c.cmdClear = 0x01#8 →
      latched (obs ++ (microProgram c .lcdInit).map eventOf) =
        latched obs ++ [0x03#5, 0x03#5, 0x03#5, 0x02#5, 0x02#5, 0x08#5, 0x00#5, 0x0C#5, 0x00#5, 0x06#5, 0x00#5,
          0x01#5])

/-- R102 items 1 to 3: every micro-program is stable on the bus. -/
def Obligations.EveryProgramIsBusStable : Prop :=
  ∀ (c : Params) (i : Instr), i.isLcdOp = true → busStable false (microProgram c i) = true

/-- R102: from before each rise of the enable line until after its fall, the selector and the data lines are
constant, in every state that meets the invariant. -/
def Obligations.LinesHeldAroundTheEnablePulse : Prop :=
  ∀ s t : State, s.Inv → step s = .next t → (s.lcdE = true ∨ t.lcdE = true) →
    (∀ inp turns, s.sched = .tick inp :: turns → inp.rstN = true) → t.lcdRs = s.lcdRs ∧ t.lcdD = s.lcdD

/-- R116, R164: micro-operations, enable pulses and delays of each operation. -/
def Obligations.OperationCountsAndDelays : Prop :=
  ∀ (c : Params) (byte : Byte) (col : BitVec 6) (row : BitVec 1) (n : Nibble),
    (writeNibble c n).length = 5 ∧ enablePulses (writeNibble c n) = 1 ∧
    delaySum (writeNibble c n) = c.tEnHigh + c.tEnSettle ∧
    (∀ i ∈ [Instr.lcdCmd byte, .lcdData byte, .lcdCursor col row],
      (microProgram c i).length = 12 ∧ enablePulses (microProgram c i) = 2) ∧
    delaySum (microProgram c (.lcdCmd byte)) = 2 * (c.tEnHigh + c.tEnSettle) + postDelay c false byte ∧
    delaySum (microProgram c (.lcdData byte)) = 2 * (c.tEnHigh + c.tEnSettle) + c.tChar ∧
    delaySum (microProgram c (.lcdCursor col row)) =
      2 * (c.tEnHigh + c.tEnSettle) + postDelay c false (cursorByte c col row) ∧
    enablePulses (microProgram c .lcdInit) = 12 ∧
    delaySum (microProgram defaultParams .lcdInit) = 58212 ∧
    delaySum (microProgram defaultParams (.lcdCmd byte)) =
      (if byte ∈ [0x01#8, 0x02#8, 0x03#8] then 2102 else 152) ∧
    delaySum (microProgram defaultParams (.lcdData byte)) = 152 ∧
    delaySum (microProgram defaultParams (.lcdCursor col row)) = 152

/-- R116, R164: the counts of `PRINT` and `FRAME` of `n` bytes. -/
def Obligations.PseudoOperationCounts : Prop :=
  ∀ text : List Byte,
    (pseudoProgram defaultParams (.print text)).length = 12 * text.length ∧
    enablePulses (pseudoProgram defaultParams (.print text)) = 2 * text.length ∧
    delaySum (pseudoProgram defaultParams (.print text)) = 152 * text.length ∧
    (pseudoProgram defaultParams (.frame text)).length = 24 + 12 * text.length ∧
    enablePulses (pseudoProgram defaultParams (.frame text)) = 4 + 2 * text.length ∧
    delaySum (pseudoProgram defaultParams (.frame text)) = 2254 + 152 * text.length

/-! ### The whole machine -/

/-- R31: the values after reset, and that the block then does nothing until an input arrives. The values of `aQ` and
`bQ` are this model's choice (notes/assumptions/4.md) and are not claimed: no first tick depends on them. -/
def Obligations.ResetValues : Prop :=
  State.reset.position = 0 ∧ State.reset.primed = false ∧ State.reset.lcdRs = false ∧ State.reset.lcdE = false ∧
  State.reset.lcdD = 0b0000#4 ∧ State.reset.lcdReady = false ∧ State.reset.lcdCw = none ∧ State.reset.lcdPc = 0 ∧
  State.reset.obs = [] ∧
  (∀ (x y : Bool) (inp : TickIn) (turns : List Turn),
    step { State.reset with aQ := x, bQ := y, sched := .tick inp :: turns } =
      step { State.reset with sched := .tick inp :: turns }) ∧
  (∀ turns : List Turn, eventLevel turns = true →
    step { State.reset with sched := turns } = .next { State.reset with sched := turns.tail })

/-- R151, R153: a tick with `rst_n` low puts every piece of the block's state at its reset value, an LCD operation in
progress is abandoned, and the parameters and the inputs not yet consumed stay (notes/assumptions/6.md). The field
`waited` is the model's own (notes/assumptions/10.md), and that a word presented in this tick is ignored is its choice
(notes/assumptions/20.md). -/
def Obligations.ResetTickAbandonsEverything : Prop :=
  ∀ (s : State) (inp : TickIn) (turns : List Turn), s.sched = .tick inp :: turns → inp.rstN = false →
    ∃ x y : Bool, step s = .next {
      position := 0, primed := false, aQ := x, bQ := y, lcdRs := false, lcdE := false, lcdD := 0#4,
      lcdReady := false, lcdCw := none, lcdPc := 0, obs := [], waited := 0,
      cfg := s.cfg, edges := s.edges, cmds := s.cmds, sched := turns }

/-- R15, R19, R20, R22, R95, R102: the state after reset meets the invariant. -/
def Obligations.ResetMeetsTheInvariant : Prop := State.reset.Inv

/-- R15, R78 item 1, R19, R22, R95, R102: every step keeps the invariant. -/
def Obligations.EveryStepKeepsTheInvariant : Prop := ∀ s t : State, s.Inv → step s = .next t → t.Inv

/-- R130: from a state that meets the invariant no step faults. -/
def Obligations.NoStepFaults : Prop := ∀ (s : State) (f : Fault), s.Inv → step s ≠ .fault f

/-- R155: if the host issues only legal words, and `LCD_INIT` once and before any other LCD operation, no interleaving
of the two agents is ever refused or faults. -/
def Obligations.WellBehavedHostIsNeverRefused : Prop :=
  ∀ (n : Nat) (s : State), s.Inv → s.hostOk → eventLevel s.sched = true → ∃ t, runSteps n s = .next t ∧ t.hostOk

/-- R49: unit L's state and the pin events depend only on the command words and on how many turns the foreground
agent has had, not on unit Q, the edge records or where the turns fall. -/
def Obligations.UnitLIgnoresUnitQ : Prop :=
  ∀ s s' t t' : State, s'.lcdView = s.lcdView → eventLevel s.sched = true → eventLevel s'.sched = true →
    s'.sched.count .foreground = s.sched.count .foreground →
    runSteps s.sched.length s = .next t → runSteps s'.sched.length s' = .next t' →
    t'.lcdView = t.lcdView ∧ ∃ new new', t.obs = s.obs ++ new ∧ t'.obs = s'.obs ++ new' ∧
      pinEvents new' = pinEvents new

/-- R20, R95: `lcd_ready` is set by the last step of `LCD_INIT` alone, and cleared by reset alone. -/
def Obligations.ReadyIsSetByInitAlone : Prop :=
  ∀ s t : State, step s = .next t →
    (s.lcdReady = false → t.lcdReady = true →
      ∃ cw, s.lcdCw = some cw ∧ decodeC cw = .op .lcdInit ∧ s.lcdPc + 1 = (microProgram s.cfg .lcdInit).length ∧
        t.lcdCw = none) ∧
    (s.lcdReady = true → t.lcdReady = false → ∃ inp turns, s.sched = .tick inp :: turns ∧ inp.rstN = false)

/-- R27: no step but reset takes anything out of the trace, and none adds more than one event. -/
def Obligations.TraceIsAppendedTo : Prop :=
  ∀ s t : State, step s = .next t →
    (∀ inp turns, s.sched = .tick inp :: turns → inp.rstN = true) →
    t.obs = s.obs ∨ ∃ ev, t.obs = s.obs ++ [ev]

/-- R24, R28: no step writes a parameter. -/
def Obligations.ParametersAreFixed : Prop := ∀ s t : State, step s = .next t → t.cfg = s.cfg

/-- R29, R59: a step runs the operation that the next word decodes to. The edge agent's turn consumes the next record;
the idle foreground agent's turn consumes the next command word. -/
def Obligations.StepRunsTheDecodedOperation : Prop :=
  (∀ (s : State) (turns : List Turn) (r : EdgeRec) (rest : List EdgeRec) (i : Instr),
    s.sched = .edge :: turns → s.edges = r :: rest → decode (.edge r) = .op i →
    step s = exec i { s with sched := turns, edges := rest }) ∧
  (∀ (s : State) (turns : List Turn) (cw : CmdWord) (rest : List CmdWord) (i : Instr),
    s.sched = .foreground :: turns → s.lcdCw = none → s.cmds = cw :: rest → decode (.cmd cw) = .op i →
    step s = exec i { s with sched := turns, cmds := rest })

/-! ### The clock tick -/

/-- R82: the pin-level front end, in a tick in which no command word is accepted. -/
def Obligations.FrontEndTick : Prop :=
  (∀ (s : State) (inp : TickIn) (turns : List Turn), s.sched = .tick inp :: turns → inp.rstN = true →
    s.lcdCw = none → inp.cmdValid = false → s.primed = false →
    step s = .next { s with sched := turns, primed := true, aQ := inp.encA, bQ := inp.encB }) ∧
  (∀ (s : State) (inp : TickIn) (turns : List Turn) (p1 p2 : Int), s.sched = .tick inp :: turns → inp.rstN = true →
    s.lcdCw = none → inp.cmdValid = false → s.primed = true →
    p1 = (if inp.encA ≠ s.aQ then wrap (s.position + (if inp.encA = inp.encB then 1 else -1)) else s.position) →
    p2 = (if inp.encB ≠ s.bQ then wrap (p1 + (if inp.encA ≠ inp.encB then 1 else -1)) else p1) →
    step s = .next { s with sched := turns, position := p2, aQ := inp.encA, bQ := inp.encB }) ∧
  (∀ (s : State) (a b : Bool), ∀ r ∈ frontEndRecords s a b, (decodeE r).wellFormed = true)

/-- R82: a tick in which an `RDPOS` word is accepted reads `position` as it was before the tick. -/
def Obligations.RdposInATickReadsThePriorPosition : Prop :=
  ∀ (s : State) (inp : TickIn) (turns : List Turn), s.sched = .tick inp :: turns → inp.rstN = true →
    s.lcdCw = none → inp.cmdValid = true → inp.cmdWord = 0x5000#16 →
    ∃ t, step s = .next t ∧ t.obs = s.obs ++ [.posRead s.position]

/-- R82, R135: both channels changing in one tick leave `position` where it was. -/
def Obligations.BothChannelsInATickCancel : Prop :=
  ∀ (s t : State) (inp : TickIn) (turns : List Turn), s.sched = .tick inp :: turns → inp.rstN = true →
    s.positionInRange → s.primed = true → inp.encA ≠ s.aQ → inp.encB ≠ s.bQ → step s = .next t →
    t.position = s.position

/-- R17, R31: while `primed = 0` no tick depends on the previous levels. -/
def Obligations.UnprimedTickIgnoresOldLevels : Prop :=
  ∀ (s : State) (x y : Bool) (inp : TickIn) (turns : List Turn), s.sched = .tick inp :: turns → s.primed = false →
    step { s with aQ := x, bQ := y } = step s

/-- R82, R163, R29: a tick outside reset is the foreground agent's part followed by the edge agent's steps on the
records the front end derives. The foreground agent does nothing only when it is idle and no word is presented, spends
a tick only of a `WAIT` that is not over or is lengthened, and takes its step otherwise. -/
def Obligations.TickIsAgentSteps : Prop :=
  ∀ (s t : State) (inp : TickIn) (turns : List Turn), s.sched = .tick inp :: turns → inp.rstN = true →
    step s = .next t →
    ∃ s1 : State,
      ((s.lcdCw = none ∧ inp.cmdValid = false ∧ s1 = { s with sched := turns }) ∨
        (∃ d, s.currentMicro = some (.wait d) ∧ (s.waited + 1 < waitTicks s.cfg d ∨ inp.hold = true) ∧
          s1 = { s with sched := turns, waited := s.waited + 1 }) ∨
        (s.lcdBusy = true ∧
          (∀ d, s.currentMicro = some (.wait d) → waitTicks s.cfg d ≤ s.waited + 1 ∧ inp.hold = false) ∧
          foregroundTurn { s with sched := turns } = .next s1) ∨
        (s.lcdBusy = false ∧ inp.cmdValid = true ∧
          foregroundTurn { s with sched := turns, cmds := inp.cmdWord :: s.cmds } = .next s1)) ∧
      ∃ t1, runSteps (frontEndRecords s inp.encA inp.encB).length
          { s1 with edges := frontEndRecords s inp.encA inp.encB,
                    sched := edgeTurns (frontEndRecords s inp.encA inp.encB).length } = .next t1 ∧
        t = { t1 with primed := true, aQ := inp.encA, bQ := inp.encB, edges := s.edges, sched := turns }

/-- R107, R163: a `WAIT(t)` holds the sequencer for at least `waitTicks` ticks, whatever the other inputs do; with no
tick lengthened it ends in exactly that many. -/
def Obligations.WaitTakesItsTicks : Prop :=
  ∀ (s : State) (d : Nat) (inps : List TickIn), s.currentMicro = some (.wait d) → s.waited = 0 →
    s.sched = inps.map .tick → (∀ inp ∈ inps, inp.rstN = true) →
    (inps.length < waitTicks s.cfg d → ∃ t, runSteps inps.length s = .next t ∧ t.obs = s.obs ∧
      t.lcdCw = s.lcdCw ∧ t.lcdPc = s.lcdPc ∧ t.lcdRs = s.lcdRs ∧ t.lcdE = s.lcdE ∧ t.lcdD = s.lcdD) ∧
    (inps.length = waitTicks s.cfg d → (∀ inp ∈ inps, inp.hold = false) →
      ∃ t, runSteps inps.length s = .next t ∧ t.obs = s.obs ++ [.delay d])

/-! ### The companion function -/

/-- R122, R123, R125: the angle of a position. That the formula holds for every integer, 2048 among them, is this
model's choice (notes/assumptions/17.md). -/
def Obligations.AngleOfPosition : Prop :=
  (∀ v : Int, angle v = (v : Rat) * 360 / 4096 ∧ angle v = (v : Rat) * 45 / 512) ∧
  (∀ v : Int, -2048 ≤ v → v < 2048 → -180 ≤ angle v ∧ angle v < 180) ∧
  angle 0 = 0 ∧ angle (-2048) = -180 ∧ angle 1024 = 90 ∧ angle (-1896) = -166640625 / 1000000 ∧
  angle 2047 = 179912109375 / 1000000000

/-- R124: every angle of a position is an integer of magnitude below `2^24` over `512`. -/
def Obligations.AngleIsExact : Prop :=
  ∀ v : Int, -2048 ≤ v → v < 2048 → ∃ m : Int, -(2 ^ 24) < m ∧ m < 2 ^ 24 ∧ angle v = (m : Rat) / 512

/-! ### The clock tick: the pin writes -/

/-- R163, R96: each `SET_*` micro-operation takes one tick outside reset, whatever the other inputs are; it is never the
last of its operation, so the sequencer goes on to the next. The order of the work in a tick is the model's
(notes/assumptions/10.md). -/
def Obligations.PinWriteTakesOneTick : Prop :=
  ∀ (s : State) (inp : TickIn) (turns : List Turn) (m : MicroOp), s.sched = .tick inp :: turns → inp.rstN = true →
    s.currentMicro = some m → (∀ d, m ≠ .wait d) →
    ∃ t, step s = .next t ∧ t.obs = s.obs ++ [eventOf m] ∧ t.lcdRs = (s.perform m).lcdRs ∧
      t.lcdE = (s.perform m).lcdE ∧ t.lcdD = (s.perform m).lcdD ∧ t.lcdCw = s.lcdCw ∧ t.lcdPc = s.lcdPc + 1 ∧
      t.lcdReady = s.lcdReady
end

