-- ==== Sys2Proof/Laws/Encoding.lean ====
section
/-! SUPPORT. The fields of a command word: the word is their concatenation, and each reads back. -/

namespace Sys2Proof

theorem commandWord_eq_fields (cw : CmdWord) : cw = opcodeField cw ++ zeroField cw ++ payloadField cw := by
  apply BitVec.eq_of_getLsbD_eq
  intro k hk
  simp only [opcodeField, zeroField, payloadField, BitVec.getLsbD_append, BitVec.getLsbD_extractLsb']
  split
  · simp [*]
  · split
    · simp_all
    · have : k - 8 - 4 < 4 := by omega
      simp only [this, decide_true, Bool.true_and]
      congr 1
      omega

theorem opcodeField_fields (o z : BitVec 4) (p : Byte) : opcodeField (o ++ z ++ p) = o := by
  apply BitVec.eq_of_getLsbD_eq
  intro k hk
  have h1 : ¬ (12 + k < 8) := by omega
  have h2 : ¬ (12 + k - 8 < 4) := by omega
  have h3 : 12 + k - 8 - 4 = k := by omega
  simp only [opcodeField, BitVec.getLsbD_append, BitVec.getLsbD_extractLsb']
  simp [h1, h2, h3, hk]

theorem zeroField_fields (o z : BitVec 4) (p : Byte) : zeroField (o ++ z ++ p) = z := by
  apply BitVec.eq_of_getLsbD_eq
  intro k hk
  simp only [zeroField, BitVec.getLsbD_append, BitVec.getLsbD_extractLsb']
  simp [hk]

theorem payloadField_fields (o z : BitVec 4) (p : Byte) : payloadField (o ++ z ++ p) = p := by
  apply BitVec.eq_of_getLsbD_eq
  intro k hk
  simp only [payloadField, BitVec.getLsbD_append, BitVec.getLsbD_extractLsb']
  simp [hk]

end Sys2Proof
end

