-- ==== Sys2Proof/Laws/State.lean ====
section
/-! SUPPORT. One lemma per field per named update of State, so that no proof unfolds a record update. -/

namespace Sys2Proof.Machine

section emit
variable (s : State) (ev : Event)
@[simp] theorem State.emit_position : (s.emit ev).position = s.position := rfl
@[simp] theorem State.emit_primed : (s.emit ev).primed = s.primed := rfl
@[simp] theorem State.emit_aQ : (s.emit ev).aQ = s.aQ := rfl
@[simp] theorem State.emit_bQ : (s.emit ev).bQ = s.bQ := rfl
@[simp] theorem State.emit_lcdRs : (s.emit ev).lcdRs = s.lcdRs := rfl
@[simp] theorem State.emit_lcdE : (s.emit ev).lcdE = s.lcdE := rfl
@[simp] theorem State.emit_lcdD : (s.emit ev).lcdD = s.lcdD := rfl
@[simp] theorem State.emit_lcdReady : (s.emit ev).lcdReady = s.lcdReady := rfl
@[simp] theorem State.emit_lcdCw : (s.emit ev).lcdCw = s.lcdCw := rfl
@[simp] theorem State.emit_lcdPc : (s.emit ev).lcdPc = s.lcdPc := rfl
@[simp] theorem State.emit_obs : (s.emit ev).obs = s.obs ++ [ev] := rfl
@[simp] theorem State.emit_waited : (s.emit ev).waited = s.waited := rfl
@[simp] theorem State.emit_cfg : (s.emit ev).cfg = s.cfg := rfl
@[simp] theorem State.emit_edges : (s.emit ev).edges = s.edges := rfl
@[simp] theorem State.emit_cmds : (s.emit ev).cmds = s.cmds := rfl
@[simp] theorem State.emit_sched : (s.emit ev).sched = s.sched := rfl
end emit

section setPosition
variable (s : State) (v : Int)
@[simp] theorem State.setPosition_position : (s.setPosition v).position = v := rfl
@[simp] theorem State.setPosition_primed : (s.setPosition v).primed = s.primed := rfl
@[simp] theorem State.setPosition_aQ : (s.setPosition v).aQ = s.aQ := rfl
@[simp] theorem State.setPosition_bQ : (s.setPosition v).bQ = s.bQ := rfl
@[simp] theorem State.setPosition_lcdRs : (s.setPosition v).lcdRs = s.lcdRs := rfl
@[simp] theorem State.setPosition_lcdE : (s.setPosition v).lcdE = s.lcdE := rfl
@[simp] theorem State.setPosition_lcdD : (s.setPosition v).lcdD = s.lcdD := rfl
@[simp] theorem State.setPosition_lcdReady : (s.setPosition v).lcdReady = s.lcdReady := rfl
@[simp] theorem State.setPosition_lcdCw : (s.setPosition v).lcdCw = s.lcdCw := rfl
@[simp] theorem State.setPosition_lcdPc : (s.setPosition v).lcdPc = s.lcdPc := rfl
@[simp] theorem State.setPosition_obs : (s.setPosition v).obs = s.obs := rfl
@[simp] theorem State.setPosition_waited : (s.setPosition v).waited = s.waited := rfl
@[simp] theorem State.setPosition_cfg : (s.setPosition v).cfg = s.cfg := rfl
@[simp] theorem State.setPosition_edges : (s.setPosition v).edges = s.edges := rfl
@[simp] theorem State.setPosition_cmds : (s.setPosition v).cmds = s.cmds := rfl
@[simp] theorem State.setPosition_sched : (s.setPosition v).sched = s.sched := rfl
end setPosition

section takeEdge
variable (s : State) (c : Channel) (a b : Bool)
@[simp] theorem State.takeEdge_position : (s.takeEdge c a b).position = wrap (s.position + dir c a b) := rfl
@[simp] theorem State.takeEdge_primed : (s.takeEdge c a b).primed = s.primed := rfl
@[simp] theorem State.takeEdge_aQ : (s.takeEdge c a b).aQ = s.aQ := rfl
@[simp] theorem State.takeEdge_bQ : (s.takeEdge c a b).bQ = s.bQ := rfl
@[simp] theorem State.takeEdge_lcdRs : (s.takeEdge c a b).lcdRs = s.lcdRs := rfl
@[simp] theorem State.takeEdge_lcdE : (s.takeEdge c a b).lcdE = s.lcdE := rfl
@[simp] theorem State.takeEdge_lcdD : (s.takeEdge c a b).lcdD = s.lcdD := rfl
@[simp] theorem State.takeEdge_lcdReady : (s.takeEdge c a b).lcdReady = s.lcdReady := rfl
@[simp] theorem State.takeEdge_lcdCw : (s.takeEdge c a b).lcdCw = s.lcdCw := rfl
@[simp] theorem State.takeEdge_lcdPc : (s.takeEdge c a b).lcdPc = s.lcdPc := rfl
@[simp] theorem State.takeEdge_obs : (s.takeEdge c a b).obs = s.obs := rfl
@[simp] theorem State.takeEdge_waited : (s.takeEdge c a b).waited = s.waited := rfl
@[simp] theorem State.takeEdge_cfg : (s.takeEdge c a b).cfg = s.cfg := rfl
@[simp] theorem State.takeEdge_edges : (s.takeEdge c a b).edges = s.edges := rfl
@[simp] theorem State.takeEdge_cmds : (s.takeEdge c a b).cmds = s.cmds := rfl
@[simp] theorem State.takeEdge_sched : (s.takeEdge c a b).sched = s.sched := rfl
end takeEdge

section latchSample
variable (s : State) (a b : Bool)
@[simp] theorem State.latchSample_position : (s.latchSample a b).position = s.position := rfl
@[simp] theorem State.latchSample_primed : (s.latchSample a b).primed = true := rfl
@[simp] theorem State.latchSample_aQ : (s.latchSample a b).aQ = a := rfl
@[simp] theorem State.latchSample_bQ : (s.latchSample a b).bQ = b := rfl
@[simp] theorem State.latchSample_lcdRs : (s.latchSample a b).lcdRs = s.lcdRs := rfl
@[simp] theorem State.latchSample_lcdE : (s.latchSample a b).lcdE = s.lcdE := rfl
@[simp] theorem State.latchSample_lcdD : (s.latchSample a b).lcdD = s.lcdD := rfl
@[simp] theorem State.latchSample_lcdReady : (s.latchSample a b).lcdReady = s.lcdReady := rfl
@[simp] theorem State.latchSample_lcdCw : (s.latchSample a b).lcdCw = s.lcdCw := rfl
@[simp] theorem State.latchSample_lcdPc : (s.latchSample a b).lcdPc = s.lcdPc := rfl
@[simp] theorem State.latchSample_obs : (s.latchSample a b).obs = s.obs := rfl
@[simp] theorem State.latchSample_waited : (s.latchSample a b).waited = s.waited := rfl
@[simp] theorem State.latchSample_cfg : (s.latchSample a b).cfg = s.cfg := rfl
@[simp] theorem State.latchSample_edges : (s.latchSample a b).edges = s.edges := rfl
@[simp] theorem State.latchSample_cmds : (s.latchSample a b).cmds = s.cmds := rfl
@[simp] theorem State.latchSample_sched : (s.latchSample a b).sched = s.sched := rfl
end latchSample

section driveRs
variable (s : State) (v : Bool)
@[simp] theorem State.driveRs_position : (s.driveRs v).position = s.position := rfl
@[simp] theorem State.driveRs_primed : (s.driveRs v).primed = s.primed := rfl
@[simp] theorem State.driveRs_aQ : (s.driveRs v).aQ = s.aQ := rfl
@[simp] theorem State.driveRs_bQ : (s.driveRs v).bQ = s.bQ := rfl
@[simp] theorem State.driveRs_lcdRs : (s.driveRs v).lcdRs = v := rfl
@[simp] theorem State.driveRs_lcdE : (s.driveRs v).lcdE = s.lcdE := rfl
@[simp] theorem State.driveRs_lcdD : (s.driveRs v).lcdD = s.lcdD := rfl
@[simp] theorem State.driveRs_lcdReady : (s.driveRs v).lcdReady = s.lcdReady := rfl
@[simp] theorem State.driveRs_lcdCw : (s.driveRs v).lcdCw = s.lcdCw := rfl
@[simp] theorem State.driveRs_lcdPc : (s.driveRs v).lcdPc = s.lcdPc := rfl
@[simp] theorem State.driveRs_obs : (s.driveRs v).obs = s.obs ++ [.rs v] := rfl
@[simp] theorem State.driveRs_waited : (s.driveRs v).waited = s.waited := rfl
@[simp] theorem State.driveRs_cfg : (s.driveRs v).cfg = s.cfg := rfl
@[simp] theorem State.driveRs_edges : (s.driveRs v).edges = s.edges := rfl
@[simp] theorem State.driveRs_cmds : (s.driveRs v).cmds = s.cmds := rfl
@[simp] theorem State.driveRs_sched : (s.driveRs v).sched = s.sched := rfl
end driveRs

section driveE
variable (s : State) (v : Bool)
@[simp] theorem State.driveE_position : (s.driveE v).position = s.position := rfl
@[simp] theorem State.driveE_primed : (s.driveE v).primed = s.primed := rfl
@[simp] theorem State.driveE_aQ : (s.driveE v).aQ = s.aQ := rfl
@[simp] theorem State.driveE_bQ : (s.driveE v).bQ = s.bQ := rfl
@[simp] theorem State.driveE_lcdRs : (s.driveE v).lcdRs = s.lcdRs := rfl
@[simp] theorem State.driveE_lcdE : (s.driveE v).lcdE = v := rfl
@[simp] theorem State.driveE_lcdD : (s.driveE v).lcdD = s.lcdD := rfl
@[simp] theorem State.driveE_lcdReady : (s.driveE v).lcdReady = s.lcdReady := rfl
@[simp] theorem State.driveE_lcdCw : (s.driveE v).lcdCw = s.lcdCw := rfl
@[simp] theorem State.driveE_lcdPc : (s.driveE v).lcdPc = s.lcdPc := rfl
@[simp] theorem State.driveE_obs : (s.driveE v).obs = s.obs ++ [.e v] := rfl
@[simp] theorem State.driveE_waited : (s.driveE v).waited = s.waited := rfl
@[simp] theorem State.driveE_cfg : (s.driveE v).cfg = s.cfg := rfl
@[simp] theorem State.driveE_edges : (s.driveE v).edges = s.edges := rfl
@[simp] theorem State.driveE_cmds : (s.driveE v).cmds = s.cmds := rfl
@[simp] theorem State.driveE_sched : (s.driveE v).sched = s.sched := rfl
end driveE

section driveD
variable (s : State) (n : Nibble)
@[simp] theorem State.driveD_position : (s.driveD n).position = s.position := rfl
@[simp] theorem State.driveD_primed : (s.driveD n).primed = s.primed := rfl
@[simp] theorem State.driveD_aQ : (s.driveD n).aQ = s.aQ := rfl
@[simp] theorem State.driveD_bQ : (s.driveD n).bQ = s.bQ := rfl
@[simp] theorem State.driveD_lcdRs : (s.driveD n).lcdRs = s.lcdRs := rfl
@[simp] theorem State.driveD_lcdE : (s.driveD n).lcdE = s.lcdE := rfl
@[simp] theorem State.driveD_lcdD : (s.driveD n).lcdD = n := rfl
@[simp] theorem State.driveD_lcdReady : (s.driveD n).lcdReady = s.lcdReady := rfl
@[simp] theorem State.driveD_lcdCw : (s.driveD n).lcdCw = s.lcdCw := rfl
@[simp] theorem State.driveD_lcdPc : (s.driveD n).lcdPc = s.lcdPc := rfl
@[simp] theorem State.driveD_obs : (s.driveD n).obs = s.obs ++ [.d n] := rfl
@[simp] theorem State.driveD_waited : (s.driveD n).waited = s.waited := rfl
@[simp] theorem State.driveD_cfg : (s.driveD n).cfg = s.cfg := rfl
@[simp] theorem State.driveD_edges : (s.driveD n).edges = s.edges := rfl
@[simp] theorem State.driveD_cmds : (s.driveD n).cmds = s.cmds := rfl
@[simp] theorem State.driveD_sched : (s.driveD n).sched = s.sched := rfl
end driveD

section beginOp
variable (s : State) (cw : CmdWord)
@[simp] theorem State.beginOp_position : (s.beginOp cw).position = s.position := rfl
@[simp] theorem State.beginOp_primed : (s.beginOp cw).primed = s.primed := rfl
@[simp] theorem State.beginOp_aQ : (s.beginOp cw).aQ = s.aQ := rfl
@[simp] theorem State.beginOp_bQ : (s.beginOp cw).bQ = s.bQ := rfl
@[simp] theorem State.beginOp_lcdRs : (s.beginOp cw).lcdRs = s.lcdRs := rfl
@[simp] theorem State.beginOp_lcdE : (s.beginOp cw).lcdE = s.lcdE := rfl
@[simp] theorem State.beginOp_lcdD : (s.beginOp cw).lcdD = s.lcdD := rfl
@[simp] theorem State.beginOp_lcdReady : (s.beginOp cw).lcdReady = s.lcdReady := rfl
@[simp] theorem State.beginOp_lcdCw : (s.beginOp cw).lcdCw = some cw := rfl
@[simp] theorem State.beginOp_lcdPc : (s.beginOp cw).lcdPc = 0 := rfl
@[simp] theorem State.beginOp_obs : (s.beginOp cw).obs = s.obs := rfl
@[simp] theorem State.beginOp_waited : (s.beginOp cw).waited = 0 := rfl
@[simp] theorem State.beginOp_cfg : (s.beginOp cw).cfg = s.cfg := rfl
@[simp] theorem State.beginOp_edges : (s.beginOp cw).edges = s.edges := rfl
@[simp] theorem State.beginOp_cmds : (s.beginOp cw).cmds = s.cmds := rfl
@[simp] theorem State.beginOp_sched : (s.beginOp cw).sched = s.sched := rfl
end beginOp

section nextMicro
variable (s : State)
@[simp] theorem State.nextMicro_position : (s.nextMicro).position = s.position := rfl
@[simp] theorem State.nextMicro_primed : (s.nextMicro).primed = s.primed := rfl
@[simp] theorem State.nextMicro_aQ : (s.nextMicro).aQ = s.aQ := rfl
@[simp] theorem State.nextMicro_bQ : (s.nextMicro).bQ = s.bQ := rfl
@[simp] theorem State.nextMicro_lcdRs : (s.nextMicro).lcdRs = s.lcdRs := rfl
@[simp] theorem State.nextMicro_lcdE : (s.nextMicro).lcdE = s.lcdE := rfl
@[simp] theorem State.nextMicro_lcdD : (s.nextMicro).lcdD = s.lcdD := rfl
@[simp] theorem State.nextMicro_lcdReady : (s.nextMicro).lcdReady = s.lcdReady := rfl
@[simp] theorem State.nextMicro_lcdCw : (s.nextMicro).lcdCw = s.lcdCw := rfl
@[simp] theorem State.nextMicro_lcdPc : (s.nextMicro).lcdPc = s.lcdPc + 1 := rfl
@[simp] theorem State.nextMicro_obs : (s.nextMicro).obs = s.obs := rfl
@[simp] theorem State.nextMicro_waited : (s.nextMicro).waited = 0 := rfl
@[simp] theorem State.nextMicro_cfg : (s.nextMicro).cfg = s.cfg := rfl
@[simp] theorem State.nextMicro_edges : (s.nextMicro).edges = s.edges := rfl
@[simp] theorem State.nextMicro_cmds : (s.nextMicro).cmds = s.cmds := rfl
@[simp] theorem State.nextMicro_sched : (s.nextMicro).sched = s.sched := rfl
end nextMicro

section finishOp
variable (s : State) (wasInit : Bool)
@[simp] theorem State.finishOp_position : (s.finishOp wasInit).position = s.position := rfl
@[simp] theorem State.finishOp_primed : (s.finishOp wasInit).primed = s.primed := rfl
@[simp] theorem State.finishOp_aQ : (s.finishOp wasInit).aQ = s.aQ := rfl
@[simp] theorem State.finishOp_bQ : (s.finishOp wasInit).bQ = s.bQ := rfl
@[simp] theorem State.finishOp_lcdRs : (s.finishOp wasInit).lcdRs = s.lcdRs := rfl
@[simp] theorem State.finishOp_lcdE : (s.finishOp wasInit).lcdE = s.lcdE := rfl
@[simp] theorem State.finishOp_lcdD : (s.finishOp wasInit).lcdD = s.lcdD := rfl
@[simp] theorem State.finishOp_lcdReady : (s.finishOp wasInit).lcdReady = (s.lcdReady || wasInit) := rfl
@[simp] theorem State.finishOp_lcdCw : (s.finishOp wasInit).lcdCw = none := rfl
@[simp] theorem State.finishOp_lcdPc : (s.finishOp wasInit).lcdPc = 0 := rfl
@[simp] theorem State.finishOp_obs : (s.finishOp wasInit).obs = s.obs := rfl
@[simp] theorem State.finishOp_waited : (s.finishOp wasInit).waited = 0 := rfl
@[simp] theorem State.finishOp_cfg : (s.finishOp wasInit).cfg = s.cfg := rfl
@[simp] theorem State.finishOp_edges : (s.finishOp wasInit).edges = s.edges := rfl
@[simp] theorem State.finishOp_cmds : (s.finishOp wasInit).cmds = s.cmds := rfl
@[simp] theorem State.finishOp_sched : (s.finishOp wasInit).sched = s.sched := rfl
end finishOp

section spendTick
variable (s : State)
@[simp] theorem State.spendTick_position : (s.spendTick).position = s.position := rfl
@[simp] theorem State.spendTick_primed : (s.spendTick).primed = s.primed := rfl
@[simp] theorem State.spendTick_aQ : (s.spendTick).aQ = s.aQ := rfl
@[simp] theorem State.spendTick_bQ : (s.spendTick).bQ = s.bQ := rfl
@[simp] theorem State.spendTick_lcdRs : (s.spendTick).lcdRs = s.lcdRs := rfl
@[simp] theorem State.spendTick_lcdE : (s.spendTick).lcdE = s.lcdE := rfl
@[simp] theorem State.spendTick_lcdD : (s.spendTick).lcdD = s.lcdD := rfl
@[simp] theorem State.spendTick_lcdReady : (s.spendTick).lcdReady = s.lcdReady := rfl
@[simp] theorem State.spendTick_lcdCw : (s.spendTick).lcdCw = s.lcdCw := rfl
@[simp] theorem State.spendTick_lcdPc : (s.spendTick).lcdPc = s.lcdPc := rfl
@[simp] theorem State.spendTick_obs : (s.spendTick).obs = s.obs := rfl
@[simp] theorem State.spendTick_waited : (s.spendTick).waited = s.waited + 1 := rfl
@[simp] theorem State.spendTick_cfg : (s.spendTick).cfg = s.cfg := rfl
@[simp] theorem State.spendTick_edges : (s.spendTick).edges = s.edges := rfl
@[simp] theorem State.spendTick_cmds : (s.spendTick).cmds = s.cmds := rfl
@[simp] theorem State.spendTick_sched : (s.spendTick).sched = s.sched := rfl
end spendTick

section setSched
variable (s : State) (turns : List Turn)
@[simp] theorem State.setSched_position : (s.setSched turns).position = s.position := rfl
@[simp] theorem State.setSched_primed : (s.setSched turns).primed = s.primed := rfl
@[simp] theorem State.setSched_aQ : (s.setSched turns).aQ = s.aQ := rfl
@[simp] theorem State.setSched_bQ : (s.setSched turns).bQ = s.bQ := rfl
@[simp] theorem State.setSched_lcdRs : (s.setSched turns).lcdRs = s.lcdRs := rfl
@[simp] theorem State.setSched_lcdE : (s.setSched turns).lcdE = s.lcdE := rfl
@[simp] theorem State.setSched_lcdD : (s.setSched turns).lcdD = s.lcdD := rfl
@[simp] theorem State.setSched_lcdReady : (s.setSched turns).lcdReady = s.lcdReady := rfl
@[simp] theorem State.setSched_lcdCw : (s.setSched turns).lcdCw = s.lcdCw := rfl
@[simp] theorem State.setSched_lcdPc : (s.setSched turns).lcdPc = s.lcdPc := rfl
@[simp] theorem State.setSched_obs : (s.setSched turns).obs = s.obs := rfl
@[simp] theorem State.setSched_waited : (s.setSched turns).waited = s.waited := rfl
@[simp] theorem State.setSched_cfg : (s.setSched turns).cfg = s.cfg := rfl
@[simp] theorem State.setSched_edges : (s.setSched turns).edges = s.edges := rfl
@[simp] theorem State.setSched_cmds : (s.setSched turns).cmds = s.cmds := rfl
@[simp] theorem State.setSched_sched : (s.setSched turns).sched = turns := rfl
end setSched

section setEdges
variable (s : State) (rs : List EdgeRec)
@[simp] theorem State.setEdges_position : (s.setEdges rs).position = s.position := rfl
@[simp] theorem State.setEdges_primed : (s.setEdges rs).primed = s.primed := rfl
@[simp] theorem State.setEdges_aQ : (s.setEdges rs).aQ = s.aQ := rfl
@[simp] theorem State.setEdges_bQ : (s.setEdges rs).bQ = s.bQ := rfl
@[simp] theorem State.setEdges_lcdRs : (s.setEdges rs).lcdRs = s.lcdRs := rfl
@[simp] theorem State.setEdges_lcdE : (s.setEdges rs).lcdE = s.lcdE := rfl
@[simp] theorem State.setEdges_lcdD : (s.setEdges rs).lcdD = s.lcdD := rfl
@[simp] theorem State.setEdges_lcdReady : (s.setEdges rs).lcdReady = s.lcdReady := rfl
@[simp] theorem State.setEdges_lcdCw : (s.setEdges rs).lcdCw = s.lcdCw := rfl
@[simp] theorem State.setEdges_lcdPc : (s.setEdges rs).lcdPc = s.lcdPc := rfl
@[simp] theorem State.setEdges_obs : (s.setEdges rs).obs = s.obs := rfl
@[simp] theorem State.setEdges_waited : (s.setEdges rs).waited = s.waited := rfl
@[simp] theorem State.setEdges_cfg : (s.setEdges rs).cfg = s.cfg := rfl
@[simp] theorem State.setEdges_edges : (s.setEdges rs).edges = rs := rfl
@[simp] theorem State.setEdges_cmds : (s.setEdges rs).cmds = s.cmds := rfl
@[simp] theorem State.setEdges_sched : (s.setEdges rs).sched = s.sched := rfl
end setEdges

section setCmds
variable (s : State) (cws : List CmdWord)
@[simp] theorem State.setCmds_position : (s.setCmds cws).position = s.position := rfl
@[simp] theorem State.setCmds_primed : (s.setCmds cws).primed = s.primed := rfl
@[simp] theorem State.setCmds_aQ : (s.setCmds cws).aQ = s.aQ := rfl
@[simp] theorem State.setCmds_bQ : (s.setCmds cws).bQ = s.bQ := rfl
@[simp] theorem State.setCmds_lcdRs : (s.setCmds cws).lcdRs = s.lcdRs := rfl
@[simp] theorem State.setCmds_lcdE : (s.setCmds cws).lcdE = s.lcdE := rfl
@[simp] theorem State.setCmds_lcdD : (s.setCmds cws).lcdD = s.lcdD := rfl
@[simp] theorem State.setCmds_lcdReady : (s.setCmds cws).lcdReady = s.lcdReady := rfl
@[simp] theorem State.setCmds_lcdCw : (s.setCmds cws).lcdCw = s.lcdCw := rfl
@[simp] theorem State.setCmds_lcdPc : (s.setCmds cws).lcdPc = s.lcdPc := rfl
@[simp] theorem State.setCmds_obs : (s.setCmds cws).obs = s.obs := rfl
@[simp] theorem State.setCmds_waited : (s.setCmds cws).waited = s.waited := rfl
@[simp] theorem State.setCmds_cfg : (s.setCmds cws).cfg = s.cfg := rfl
@[simp] theorem State.setCmds_edges : (s.setCmds cws).edges = s.edges := rfl
@[simp] theorem State.setCmds_cmds : (s.setCmds cws).cmds = cws := rfl
@[simp] theorem State.setCmds_sched : (s.setCmds cws).sched = s.sched := rfl
end setCmds

section resetBlock
variable (s : State)
@[simp] theorem State.resetBlock_position : (s.resetBlock).position = State.reset.position := rfl
@[simp] theorem State.resetBlock_primed : (s.resetBlock).primed = State.reset.primed := rfl
@[simp] theorem State.resetBlock_aQ : (s.resetBlock).aQ = State.reset.aQ := rfl
@[simp] theorem State.resetBlock_bQ : (s.resetBlock).bQ = State.reset.bQ := rfl
@[simp] theorem State.resetBlock_lcdRs : (s.resetBlock).lcdRs = State.reset.lcdRs := rfl
@[simp] theorem State.resetBlock_lcdE : (s.resetBlock).lcdE = State.reset.lcdE := rfl
@[simp] theorem State.resetBlock_lcdD : (s.resetBlock).lcdD = State.reset.lcdD := rfl
@[simp] theorem State.resetBlock_lcdReady : (s.resetBlock).lcdReady = State.reset.lcdReady := rfl
@[simp] theorem State.resetBlock_lcdCw : (s.resetBlock).lcdCw = State.reset.lcdCw := rfl
@[simp] theorem State.resetBlock_lcdPc : (s.resetBlock).lcdPc = State.reset.lcdPc := rfl
@[simp] theorem State.resetBlock_obs : (s.resetBlock).obs = State.reset.obs := rfl
@[simp] theorem State.resetBlock_waited : (s.resetBlock).waited = State.reset.waited := rfl
@[simp] theorem State.resetBlock_cfg : (s.resetBlock).cfg = s.cfg := rfl
@[simp] theorem State.resetBlock_edges : (s.resetBlock).edges = s.edges := rfl
@[simp] theorem State.resetBlock_cmds : (s.resetBlock).cmds = s.cmds := rfl
@[simp] theorem State.resetBlock_sched : (s.resetBlock).sched = s.sched := rfl
end resetBlock

section perform
variable (s : State) (m : MicroOp)
@[simp] theorem State.perform_obs : (s.perform m).obs = s.obs ++ [eventOf m] := by cases m <;> rfl
@[simp] theorem State.perform_position : (s.perform m).position = s.position := by cases m <;> rfl
@[simp] theorem State.perform_primed : (s.perform m).primed = s.primed := by cases m <;> rfl
@[simp] theorem State.perform_aQ : (s.perform m).aQ = s.aQ := by cases m <;> rfl
@[simp] theorem State.perform_bQ : (s.perform m).bQ = s.bQ := by cases m <;> rfl
@[simp] theorem State.perform_lcdReady : (s.perform m).lcdReady = s.lcdReady := by cases m <;> rfl
@[simp] theorem State.perform_lcdCw : (s.perform m).lcdCw = s.lcdCw := by cases m <;> rfl
@[simp] theorem State.perform_lcdPc : (s.perform m).lcdPc = s.lcdPc := by cases m <;> rfl
@[simp] theorem State.perform_waited : (s.perform m).waited = s.waited := by cases m <;> rfl
@[simp] theorem State.perform_cfg : (s.perform m).cfg = s.cfg := by cases m <;> rfl
@[simp] theorem State.perform_edges : (s.perform m).edges = s.edges := by cases m <;> rfl
@[simp] theorem State.perform_cmds : (s.perform m).cmds = s.cmds := by cases m <;> rfl
@[simp] theorem State.perform_sched : (s.perform m).sched = s.sched := by cases m <;> rfl
end perform

theorem State.lcdBusy_of_idle {s : State} (h : s.lcdCw = none) : s.lcdBusy = false := by simp [State.lcdBusy, h]
theorem State.lcdBusy_of_op {s : State} {cw : CmdWord} (h : s.lcdCw = some cw) : s.lcdBusy = true := by
  simp [State.lcdBusy, h]
theorem State.idle_of_not_lcdBusy {s : State} (h : s.lcdBusy = false) : s.lcdCw = none := by
  simpa [State.lcdBusy] using h
theorem State.cmdReady_eq_not_lcdBusy (s : State) : s.cmdReady = !s.lcdBusy := by
  cases h : s.lcdCw <;> simp [State.cmdReady, State.lcdBusy, h]

end Sys2Proof.Machine
end

