-- ==== Sys2Proof/Laws/Ops.lean ====
section
/-! SUPPORT. What each shared operation and each agent can do, said once: if it answers a next state, then one of
these cases holds. -/

namespace Sys2Proof.Machine

theorem acceptInit_next {cw : CmdWord} {s t : State} (h : acceptInit cw s = .next t) :
    (s.lcdBusy = true ∧ t = s) ∨ (s.lcdBusy = false ∧ s.lcdReady = false ∧ t = s.beginOp cw) := by
  unfold acceptInit at h
  split at h <;> [skip; split at h] <;> cases h <;> simp_all

theorem acceptWhenReady_next {cw : CmdWord} {s t : State} (h : acceptWhenReady cw s = .next t) :
    (s.lcdBusy = true ∧ t = s) ∨ (s.lcdBusy = false ∧ s.lcdReady = true ∧ t = s.beginOp cw) := by
  unfold acceptWhenReady at h
  split at h <;> [skip; split at h] <;> cases h <;> simp_all

theorem execRdpos_next {s t : State} (h : execRdpos s = .next t) :
    (s.lcdBusy = true ∧ t = s) ∨ (s.lcdBusy = false ∧ t = s.emit (.posRead s.position)) := by
  unfold execRdpos at h
  split at h <;> cases h <;> simp_all

/-- A command word accepted by an idle block: it is `RDPOS`, `LCD_INIT` before the driver is ready, or another LCD
operation after. -/
theorem acceptWord_next {cw : CmdWord} {s t : State} (idle : s.lcdCw = none) (h : acceptWord cw s = .next t) :
    (∃ i, decodeC cw = .op i ∧ i.isEdge = true ∧ ∃ c a b, t = s.takeEdge c a b) ∨
    (decodeC cw = .op .rdpos ∧ t = s.emit (.posRead s.position)) ∨
    (decodeC cw = .op .lcdInit ∧ s.lcdReady = false ∧ t = s.beginOp wordLcdInit) ∨
    (∃ i w, decodeC cw = .op i ∧ i.isLcdOp = true ∧ i ≠ .lcdInit ∧ encode i = .cmd w ∧ s.lcdReady = true ∧
      t = s.beginOp w) := by
  have notBusy : s.lcdBusy = false := State.lcdBusy_of_idle idle
  unfold acceptWord at h
  cases hd : decodeC cw with
  | reserved why => simp [hd] at h
  | op i =>
    simp only [hd] at h
    cases i with
    | edgeA p a b => cases h; exact .inl ⟨_, rfl, rfl, .chanA, a, b, rfl⟩
    | edgeB p a b => cases h; exact .inl ⟨_, rfl, rfl, .chanB, a, b, rfl⟩
    | rdpos => rcases execRdpos_next h with ⟨hb, -⟩ | ⟨-, rfl⟩ <;> simp_all
    | lcdInit => rcases acceptInit_next h with ⟨hb, -⟩ | ⟨-, hr, rfl⟩ <;> simp_all
    | lcdCmd byte =>
      rcases acceptWhenReady_next h with ⟨hb, -⟩ | ⟨-, hr, rfl⟩
      · simp_all
      · exact .inr (.inr (.inr ⟨_, _, rfl, rfl, by simp, rfl, hr, rfl⟩))
    | lcdData byte =>
      rcases acceptWhenReady_next h with ⟨hb, -⟩ | ⟨-, hr, rfl⟩
      · simp_all
      · exact .inr (.inr (.inr ⟨_, _, rfl, rfl, by simp, rfl, hr, rfl⟩))
    | lcdCursor col row =>
      rcases acceptWhenReady_next h with ⟨hb, -⟩ | ⟨-, hr, rfl⟩
      · simp_all
      · exact .inr (.inr (.inr ⟨_, _, rfl, rfl, by simp, rfl, hr, rfl⟩))

/-- A micro step performs the micro-operation at `lcd_pc`, and then completes the operation or advances. -/
theorem microStep_next {cw : CmdWord} {s t : State} (h : microStep cw s = .next t) :
    ∃ m, (uprog s.cfg cw)[s.lcdPc]? = some m ∧
      ((s.lcdPc + 1 = (uprog s.cfg cw).length ∧ t = (s.perform m).finishOp (isInitWord cw)) ∨
        (s.lcdPc + 1 ≠ (uprog s.cfg cw).length ∧ t = (s.perform m).nextMicro)) := by
  unfold microStep at h
  split at h
  · cases h
  · next m hm =>
    split at h <;> cases h
    · exact ⟨m, hm, .inl ⟨‹_›, rfl⟩⟩
    · exact ⟨m, hm, .inr ⟨‹_›, rfl⟩⟩

/-- The foreground agent's step: a micro step, nothing, or the acceptance of the next word. -/
theorem foregroundTurn_next {s t : State} (h : foregroundTurn s = .next t) :
    (∃ cw, s.lcdCw = some cw ∧ microStep cw s = .next t) ∨
    (s.lcdCw = none ∧ s.cmds = [] ∧ t = s) ∨
    (∃ cw rest, s.lcdCw = none ∧ s.cmds = cw :: rest ∧ acceptWord cw (s.setCmds rest) = .next t) := by
  unfold foregroundTurn at h
  split at h
  · next cw hcw => exact .inl ⟨cw, hcw, h⟩
  · next hcw =>
    split at h
    · next hc => cases h; exact .inr (.inl ⟨hcw, hc, rfl⟩)
    · next cw rest hc => exact .inr (.inr ⟨cw, rest, hcw, hc, h⟩)

/-- The micro-operation of the operation in progress is the one `lcd_pc` names in its micro-program. -/
theorem State.currentMicro_of_op {s : State} {cw : CmdWord} (h : s.lcdCw = some cw) :
    s.currentMicro = (uprog s.cfg cw)[s.lcdPc]? := by
  simp only [State.currentMicro, h]

/-- A micro-operation is under way only while an LCD operation is in progress. -/
theorem State.op_of_currentMicro {s : State} {m : MicroOp} (h : s.currentMicro = some m) : ∃ cw, s.lcdCw = some cw := by
  unfold State.currentMicro at h
  split at h
  · cases h
  · exact ⟨_, ‹_›⟩

/-- The foreground agent's part of a tick: another tick of a wait that is not over or is lengthened, a micro step when
there is no such wait, nothing, or the acceptance of the word at the command port. -/
theorem tickForeground_next {inp : TickIn} {s t : State} (h : tickForeground inp s = .next t) :
    (∃ d, s.currentMicro = some (.wait d) ∧ (s.waited + 1 < waitTicks s.cfg d ∨ inp.hold = true) ∧ t = s.spendTick) ∨
    (∃ cw, s.lcdCw = some cw ∧
      (∀ d, s.currentMicro = some (.wait d) → waitTicks s.cfg d ≤ s.waited + 1 ∧ inp.hold = false) ∧
      microStep cw s = .next t) ∨
    (s.lcdCw = none ∧ inp.cmdValid = false ∧ t = s) ∨
    (s.lcdCw = none ∧ inp.cmdValid = true ∧ acceptWord inp.cmdWord s = .next t) := by
  unfold tickForeground at h
  split at h
  · next cw hcw =>
    cases hm : s.currentMicro with
    | none => simp [hm] at h
    | some m =>
      cases m with
      | wait d =>
        simp only [hm] at h
        split at h
        · next hw => cases h; exact .inl ⟨d, rfl, hw, rfl⟩
        · next hw =>
          refine .inr (.inl ⟨cw, hcw, ?_, h⟩)
          rintro d' ⟨⟩
          simpa using hw
      | setRs v => exact .inr (.inl ⟨cw, hcw, by simp, by simpa only [hm] using h⟩)
      | setD n => exact .inr (.inl ⟨cw, hcw, by simp, by simpa only [hm] using h⟩)
      | setE v => exact .inr (.inl ⟨cw, hcw, by simp, by simpa only [hm] using h⟩)
  · next hcw =>
    split at h
    · exact .inr (.inr (.inr ⟨hcw, ‹_›, h⟩))
    · cases h; exact .inr (.inr (.inl ⟨hcw, by simp_all, rfl⟩))

/-- A tick: reset, or the foreground agent's part and then the front end. -/
theorem tick_next {inp : TickIn} {s t : State} (h : tick inp s = .next t) :
    (inp.rstN = false ∧ t = s.resetBlock) ∨
    (inp.rstN = true ∧ ∃ s', tickForeground inp s = .next s' ∧ t = frontEnd inp.encA inp.encB s') := by
  unfold tick at h
  split at h
  · split at h <;> cases h
    exact .inr ⟨‹_›, _, ‹_›, rfl⟩
  · cases h
    exact .inl ⟨by simp_all, rfl⟩

/-- The edge agent's step: nothing, or one record performed. -/
theorem edgeTurn_next {s t : State} (h : edgeTurn s = .next t) :
    (s.edges = [] ∧ t = s) ∨ (∃ r rest, s.edges = r :: rest ∧ exec (decodeE r) (s.setEdges rest) = .next t) := by
  unfold edgeTurn at h
  split at h
  · next he => cases h; exact .inl ⟨he, rfl⟩
  · next r rest he => exact .inr ⟨r, rest, he, h⟩

/-- A step: nothing is scheduled, or the scheduled turn is taken. -/
theorem step_next {s t : State} (h : step s = .next t) :
    (s.sched = [] ∧ t = s) ∨ (∃ turn rest, s.sched = turn :: rest ∧ takeTurn turn (s.setSched rest) = .next t) := by
  unfold step at h
  split at h
  · next hs => cases h; exact .inl ⟨hs, rfl⟩
  · next turn rest hs => exact .inr ⟨turn, rest, hs, h⟩

end Sys2Proof.Machine
end

