-- ==== Sys2Proof/Laws/PerInstr.lean ====
section
/-! SUPPORT. The family RowMatch: the word of each operation selects the row of spec/opcode_table.json that is its own
(R59), and its pattern of fixed bits is the table's. -/

/-- The `match` and `mask` of the operation's row in the opcode table, with the word's port (R59). -/
def Sys2Proof.Laws.RowMatch.row : Sys2Proof.Instr → Nat × Nat
  | .edgeA _ _ _ => (0x0, 0x8)
  | .edgeB _ _ _ => (0x8, 0x8)
  | .rdpos => (0x5000, 0xFFFF)
  | .lcdInit => (0x1000, 0xFFFF)
  | .lcdCmd _ => (0x2000, 0xFF00)
  | .lcdData _ => (0x3000, 0xFF00)
  | .lcdCursor _ _ => (0x4000, 0xFF80)

/-- "A word or record `w` selects a row when `w AND mask == match`" (R59). -/
def Sys2Proof.Laws.RowMatch.Statement (i : Sys2Proof.Instr) : Prop :=
  match Sys2Proof.encode i with
  | .edge r => r &&& BitVec.ofNat 4 (row i).2 = BitVec.ofNat 4 (row i).1
  | .cmd cw => cw &&& BitVec.ofNat 16 (row i).2 = BitVec.ofNat 16 (row i).1

namespace Sys2Proof.Laws.RowMatch

theorem edgeA (p : Polarity) (a b : Bool) : Statement (.edgeA p a b) := by
  cases p <;> cases a <;> cases b <;> rfl

theorem edgeB (p : Polarity) (a b : Bool) : Statement (.edgeB p a b) := by
  cases p <;> cases a <;> cases b <;> rfl

theorem rdpos : Statement .rdpos := rfl

theorem lcdInit : Statement .lcdInit := rfl

theorem lcdCmd (byte : Byte) : Statement (.lcdCmd byte) := by
  change wordLcdCmd byte &&& 0xFF00#16 = 0x2000#16
  revert byte; decide

theorem lcdData (byte : Byte) : Statement (.lcdData byte) := by
  change wordLcdData byte &&& 0xFF00#16 = 0x3000#16
  revert byte; decide

theorem lcdCursor (col : BitVec 6) (row : BitVec 1) : Statement (.lcdCursor col row) := by
  change wordLcdCursor col row &&& 0xFF80#16 = 0x4000#16
  revert col row; decide

end Sys2Proof.Laws.RowMatch
end

