-- ==== Sys2Proof/Laws/Quadrature.lean ====
section
/-! SUPPORT. The arithmetic of unit Q: the direction decode, the wrap, and the closed form. -/

namespace Sys2Proof.Machine

theorem dir_eq_one_or_neg_one (c : Channel) (a b : Bool) : dir c a b = 1 ∨ dir c a b = -1 := by
  cases c <;> simp only [dir] <;> split <;> simp

theorem dir_chanA_eq_neg_dir_chanB (a b : Bool) : dir .chanA a b = -dir .chanB a b := by
  cases a <;> cases b <;> rfl

/-- On every sum the block can form, the wrap is the remainder form of R73. -/
theorem wrap_eq_emod {v : Int} (hl : -2049 ≤ v) (hu : v ≤ 2048) : wrap v = (v + 2048) % 4096 - 2048 := by
  simp only [wrap, half, modulus]
  split_ifs <;> omega

theorem wrap_inRange {v : Int} (hl : -2049 ≤ v) (hu : v ≤ 2048) : -half ≤ wrap v ∧ wrap v < half := by
  rw [wrap_eq_emod hl hu]
  simp only [half]
  omega

theorem takeEdge_inRange {s : State} (h : s.positionInRange) (c : Channel) (a b : Bool) :
    (s.takeEdge c a b).positionInRange := by
  obtain ⟨hl, hu⟩ := h
  simp only [half] at hl hu
  rcases dir_eq_one_or_neg_one c a b with hd | hd <;>
    exact wrap_inRange (by simp only [hd]; omega) (by simp only [hd]; omega)

/-- One pulse from a position in range is the closed form of one pulse. -/
theorem wrap_add_dir {p : Int} (hl : -2048 ≤ p) (hu : p < 2048) (c : Channel) (a b : Bool) :
    wrap (p + dir c a b) = movedBy p (dir c a b) := by
  rcases dir_eq_one_or_neg_one c a b with hd | hd <;>
    · rw [hd, wrap_eq_emod (by omega) (by omega)]
      rfl

theorem movedBy_inRange (p n : Int) : -half ≤ movedBy p n ∧ movedBy p n < half := by
  simp only [movedBy, half, modulus]
  omega

theorem movedBy_movedBy (p m n : Int) : movedBy (movedBy p m) n = movedBy p (m + n) := by
  simp only [movedBy, half, modulus]
  omega

theorem movedBy_zero {p : Int} (hl : -half ≤ p) (hu : p < half) : movedBy p 0 = p := by
  simp only [movedBy, half, modulus] at *
  omega

theorem netDelta_cons (r : EdgeRec) (rs : List EdgeRec) : netDelta (r :: rs) = edgeDelta r + netDelta rs := by
  simp [netDelta]

/-- Performing an edge record (R62, R74, R75): the position moves by `edgeDelta`, and nothing else changes. -/
theorem exec_decodeE (r : EdgeRec) (s : State) :
    exec (decodeE r) s = .next (s.setPosition (wrap (s.position + edgeDelta r))) := by
  unfold decodeE edgeDelta
  split <;> rfl

end Sys2Proof.Machine
end

