-- ==== Sys2Proof/Laws/Run.lean ====
section
/-! SUPPORT. Runs: `runSteps` is the host's run of the machine, it goes through addition, and an invariant of the step
is an invariant of every run. -/

namespace Sys2Proof.Machine

@[simp] theorem runSteps_zero (s : State) : runSteps 0 s = .next s := rfl

theorem runSteps_succ (n : Nat) (s : State) : runSteps (n + 1) s =
    match step s with
    | .next s' => runSteps n s'
    | .fault r => .fault r
    | .refused r => .refused r := rfl

theorem runSteps_succ_of_next {n : Nat} {s s' : State} (h : step s = .next s') :
    runSteps (n + 1) s = runSteps n s' := by
  rw [runSteps_succ, h]

/-- A run that answers a next state begins with a step that does. -/
theorem runSteps_succ_next {n : Nat} {s t : State} (h : runSteps (n + 1) s = .next t) :
    ∃ s', step s = .next s' ∧ runSteps n s' = .next t := by
  rw [runSteps_succ] at h
  split at h
  · exact ⟨_, ‹_›, h⟩
  · cases h
  · cases h

theorem runSteps_add {m n : Nat} {s s' : State} (h : runSteps m s = .next s') :
    runSteps (m + n) s = runSteps n s' := by
  induction m generalizing s with
  | zero => cases h; simp
  | succ m ih =>
    obtain ⟨s1, h1, h2⟩ := runSteps_succ_next h
    rw [Nat.add_right_comm, runSteps_succ_of_next h1, ih h2]

/-- The induction over a run, packaged once. -/
theorem runSteps_induct {Q : State → Prop} (keep : ∀ s t, Q s → step s = .next t → Q t) {n : Nat} {s t : State}
    (hs : Q s) (h : runSteps n s = .next t) : Q t := by
  induction n generalizing s with
  | zero => cases h; exact hs
  | succ n ih =>
    obtain ⟨s', h1, h2⟩ := runSteps_succ_next h
    exact ih (keep s s' hs h1) h2

/-- The host's run, one step at a time, for any machine. -/
theorem core_run_succ_of_next (M : Host.Core) {n : Nat} {s s' : M.State} (h : M.step s = .next s') :
    M.run (n + 1) s = M.run n s' := by
  rw [Host.Core.run, h]

theorem core_run_succ_of_fault (M : Host.Core) {n : Nat} {s : M.State} {r : M.Fault} (h : M.step s = .fault r) :
    M.run (n + 1) s = .fault r := by
  rw [Host.Core.run, h]

theorem core_run_succ_of_refused (M : Host.Core) {n : Nat} {s : M.State} {r : M.Refusal} (h : M.step s = .refused r) :
    M.run (n + 1) s = .refused r := by
  rw [Host.Core.run, h]

/-- `runSteps` is the run of the machine the host reads. -/
theorem core_run_eq_runSteps (n : Nat) (s : State) : Host.Core.run core n s = runSteps n s := by
  induction n generalizing s with
  | zero => rfl
  | succ n ih =>
    rw [runSteps_succ]
    cases h : step s with
    | next s' => exact (core_run_succ_of_next core h).trans (ih s')
    | fault r => exact core_run_succ_of_fault core h
    | refused r => exact core_run_succ_of_refused core h

end Sys2Proof.Machine
end

