-- ==== Sys2Proof/Laws/Trace.lean ====
section
/-! SUPPORT. Lemmas about traces and micro-programs: the scan of R103 is a fold, and the enable level and the bus
stability of R102 go through concatenation. -/

namespace Sys2Proof.Machine

theorem scan_append (obs new : List Event) : scan (obs ++ new) = new.foldl scanEvent (scan obs) := by
  simp [scan, List.foldl_append]

theorem scan_emit (obs : List Event) (ev : Event) : scan (obs ++ [ev]) = scanEvent (scan obs) ev := by
  simp [scan_append]

theorem enableAfter_append (e : Bool) (xs ys : List MicroOp) :
    enableAfter e (xs ++ ys) = enableAfter (enableAfter e xs) ys := by
  induction xs generalizing e with
  | nil => rfl
  | cons m xs ih => cases m <;> exact ih _

theorem pinEvents_append (xs ys : List Event) : pinEvents (xs ++ ys) = pinEvents xs ++ pinEvents ys := by
  simp [pinEvents]

theorem delaySum_append (xs ys : List MicroOp) : delaySum (xs ++ ys) = delaySum xs + delaySum ys := by
  simp [delaySum]

theorem enablePulses_append (xs ys : List MicroOp) : enablePulses (xs ++ ys) = enablePulses xs + enablePulses ys := by
  simp [enablePulses]

end Sys2Proof.Machine
end

