-- ==== Sys2Proof/Tests/Slice0.lean ====
section
/-! SUPPORT. The model's own tests. Every expected value is taken from spec/: the worked examples of the rules and the
vectors of spec/95_test_vectors.md, whose ids stand in the comments. The theorems named witness_ show that the
hypotheses of the statement they name can be met together. -/

namespace Sys2Proof.Tests

open Sys2Proof.Machine

/-- What a test reads of an outcome. -/
def stateOf : Host.Outcome State Fault Refusal → Option State
  | .next s => some s
  | .fault _ => none
  | .refused _ => none

def refusalOf : Host.Outcome State Fault Refusal → Option Refusal
  | .next _ => none
  | .fault _ => none
  | .refused r => some r

/-- The states the tests start from. -/
def atPosition (p : Int) : State := { State.reset with position := p }
def ready : State := { State.reset with lcdReady := true }
def presenting (s : State) (cws : List CmdWord) (n : Nat) : State := { s with cmds := cws, sched := foregroundTurns n }
def ticking (s : State) (inp : TickIn) : State := { s with sched := [.tick inp] }

/-- A tick with the given levels and no command word. -/
def levels (a b : Bool) : TickIn := ⟨true, a, b, false, 0#16, false⟩

/-! ### Decoding (2.1 and 2.11) -/

theorem test_decode_lcdInit : decodeC 0b0001000000000000#16 = .op .lcdInit := by decide
theorem test_decode_lcdCmd : decodeC 0b0010000011111111#16 = .op (.lcdCmd 0xFF#8) := by decide
theorem test_decode_lcdData : decodeC 0b0011000001000001#16 = .op (.lcdData 0x41#8) := by decide
theorem test_decode_lcdCursor : decodeC 0b0100000001000101#16 = .op (.lcdCursor 5#6 1#1) := by decide
theorem test_decode_lcdCursor_last : decodeC 0b0100000001111111#16 = .op (.lcdCursor 63#6 1#1) := by decide
theorem test_decode_rdpos : decodeC 0b0101000000000000#16 = .op .rdpos := by decide
theorem test_decode_edgeA : decodeE 0b0001#4 = .edgeA .falling false true := by decide
theorem test_decode_edgeB : decodeE 0b1110#4 = .edgeB .rising true false := by decide
theorem test_encode_syntax_examples :
    encode (.edgeA .falling false false) = .edge 0x0#4 ∧ encode (.edgeB .falling true false) = .edge 0xA#4 ∧
      encode (.lcdCmd 0x01#8) = .cmd 0x2001#16 ∧ encode (.lcdCursor 5#6 1#1) = .cmd 0x4045#16 := by decide

theorem test_reserved_opcode :
    decodeC 0x0000#16 = .reserved .opcode ∧ decodeC 0x6000#16 = .reserved .opcode ∧
      decodeC 0xFFFF#16 = .reserved .opcode := by decide
theorem test_reserved_zeroField :
    decodeC 0x2100#16 = .reserved .zeroField ∧ decodeC 0x3F41#16 = .reserved .zeroField := by decide
theorem test_reserved_payload :
    decodeC 0x1001#16 = .reserved .payload ∧ decodeC 0x5001#16 = .reserved .payload := by decide
theorem test_reserved_cursorBit :
    decodeC 0x4080#16 = .reserved .cursorBit ∧ decodeC 0x40FF#16 = .reserved .cursorBit := by decide

theorem test_decodeTableWord :
    decodeTableWord 8 0x0 = some (.edgeA .falling false false) ∧ decodeTableWord 8 0x8 =
      some (.edgeB .falling false false) ∧ decodeTableWord 16 0x5000 = some .rdpos ∧
      decodeTableWord 16 0x5001 = none ∧ decodeTableWord 8 0x10 = none := by decide

/-! ### The checks of WellFormed.lean refuse ill-formed terms -/

theorem test_illformed_edgeA_record : (decodeE 0x2#4).wellFormed = false := by decide
theorem test_illformed_edgeB_record : (decodeE 0x9#4).wellFormed = false := by decide
theorem test_illegal_words :
    commandWordLegal 0x0000#16 = false ∧ commandWordLegal 0x6000#16 = false ∧ commandWordLegal 0x2100#16 = false ∧
      commandWordLegal 0x1001#16 = false ∧ commandWordLegal 0x5001#16 = false ∧ commandWordLegal 0x4080#16 = false := by
  decide
theorem test_illformed_width : Params.wellFormed { defaultParams with posW := 12 } = false := by decide
theorem test_illformed_clock : Params.wellFormed { defaultParams with clkDen := 0 } = false := by decide
theorem test_wellformed_defaults : defaultParams.wellFormed = true := by decide

/-! ### Each operation, one step -/

/-- P2: the record `0x7` at 2047 wraps to -2048. -/
theorem test_edgeA_wraps_up :
    (stateOf (exec (.edgeA .rising true true) (atPosition 2047))).map (·.position) = some (-2048) := by decide
/-- Q2i: the ill-formed record `0x2` at 10 moves back to 9. -/
theorem test_edgeA_illformed : (stateOf (exec (decodeE 0x2#4) (atPosition 10))).map (·.position) = some 9 := by decide
/-- Q2f: the record `0x8` at -2048 wraps to 2047. -/
theorem test_edgeB_wraps_down :
    (stateOf (exec (.edgeB .falling false false) (atPosition (-2048)))).map (·.position) = some 2047 := by decide
/-- R75's worked example: at 10, `0xA` moves to 11. -/
theorem test_edgeB_forward : (stateOf (exec (decodeE 0xA#4) (atPosition 10))).map (·.position) = some 11 := by decide
/-- X5: `RDPOS` before `LCD_INIT` is accepted. -/
theorem test_rdpos : (stateOf (exec .rdpos (atPosition (-1896)))).map (·.obs) = some [.posRead (-1896)] := by decide
/-- 2.6: the patterns on `rd_data`. -/
theorem test_rdData :
    (atPosition (-1896)).rdData.toNat = 0xF898 ∧ (atPosition (-2048)).rdData.toNat = 0xF800 ∧
      (atPosition 2047).rdData.toNat = 0x07FF ∧ (atPosition (-1)).rdData.toNat = 0xFFFF := by decide
/-- R104: the acceptance of `LCD_INIT`. -/
theorem test_lcdInit_accepted : (stateOf (exec .lcdInit State.reset)).map (·.lcdCw) = some (some 0x1000#16) := by decide
/-- X3: a second `LCD_INIT`. -/
theorem test_lcdInit_second : refusalOf (exec .lcdInit ready) = some .secondInit := by decide
/-- X1, X2: before `LCD_INIT`. -/
theorem test_lcd_before_init :
    refusalOf (exec (.lcdData 0x41#8) State.reset) = some .notInitialized ∧
      refusalOf (exec (.lcdCmd 0x01#8) State.reset) = some .notInitialized ∧
      refusalOf (exec (.lcdCursor 0#6 0#1) State.reset) = some .notInitialized := by decide
/-- X4: a reserved word is refused by the step that would accept it. -/
theorem test_reserved_refused : refusalOf (step (presenting ready [0x5001#16] 1)) = some .reservedWord := by decide
/-- X6: while an operation is in progress a word waits. -/
theorem test_busy_waits :
    (stateOf (step { presenting State.reset [0x5000#16] 1 with lcdCw := some 0x1000#16 })).map (·.cmds) =
      some [0x5000#16] := by decide

/-! ### The micro-programs -/

/-- L1: `LCD_CMD 0x01`. -/
theorem test_program_lcdCmd : (microProgram defaultParams (.lcdCmd 0x01#8)).map eventOf =
    [.rs false, .d 0#4, .e true, .delay 1, .e false, .delay 50, .d 1#4, .e true, .delay 1, .e false, .delay 50,
      .delay 2000] := by decide
/-- L2: `LCD_DATA 'A'`. -/
theorem test_program_lcdData : (microProgram defaultParams (.lcdData 0x41#8)).map eventOf =
    [.rs true, .d 4#4, .e true, .delay 1, .e false, .delay 50, .d 1#4, .e true, .delay 1, .e false, .delay 50,
      .delay 50] := by decide
/-- L8 and L7, L7b: the post delay of data byte 1 and of command bytes 2, 3 and 4. -/
theorem test_postDelay :
    postDelay defaultParams true 0x01#8 = 50 ∧ postDelay defaultParams false 0x02#8 = 2000 ∧
      postDelay defaultParams false 0x03#8 = 2000 ∧ postDelay defaultParams false 0x04#8 = 50 := by decide
/-- L10 and L14: `LCD_CURSOR 5, 1` and `LCD_CURSOR 63, 1`. -/
theorem test_program_lcdCursor :
    latched ((microProgram defaultParams (.lcdCursor 5#6 1#1)).map eventOf) = [0x0C#5, 0x05#5] ∧
      latched ((microProgram defaultParams (.lcdCursor 63#6 1#1)).map eventOf) = [0x0F#5, 0x0F#5] := by decide
/-- L15: the head of `LCD_INIT`'s trace. -/
theorem test_program_lcdInit_head : ((microProgram defaultParams .lcdInit).map eventOf).take 20 =
    [.delay 50000, .rs false, .d 3#4, .e true, .delay 1, .e false, .delay 50, .delay 5000,
      .d 3#4, .e true, .delay 1, .e false, .delay 50, .delay 150,
      .d 3#4, .e true, .delay 1, .e false, .delay 50, .delay 150] := by decide
/-- L15: the tail of `LCD_INIT`'s trace. -/
theorem test_program_lcdInit_tail : ((microProgram defaultParams .lcdInit).map eventOf).drop 62 =
    [.rs false, .d 0#4, .e true, .delay 1, .e false, .delay 50, .d 1#4, .e true, .delay 1, .e false, .delay 50,
      .delay 2000] := by decide
/-- L15: the sum of the delays. -/
theorem test_program_lcdInit_delays : delaySum (microProgram defaultParams .lcdInit) = 58212 := by decide
/-- P4: the words of `FRAME "Hi"`. -/
theorem test_frame_words :
    pseudoWords defaultParams (.frame [0x48#8, 0x69#8]) = [0x2001#16, 0x4000#16, 0x3048#16, 0x3069#16] := by decide
/-- R65: the syntax table. -/
theorem test_asm :
    asm (.edgeA .falling false false) = "EDGE_A F, 0, 0" ∧ asm (.edgeB .falling true false) = "EDGE_B F, 1, 0" ∧
      asm (.lcdCmd 0x01#8) = "LCD_CMD 0x01" ∧ asm (.lcdCursor 5#6 1#1) = "LCD_CURSOR 5, 1" := by decide

/-! ### The clock tick (2.7) -/

/-- Tick 1 primes and generates nothing. -/
theorem test_tick_primes : (stateOf (step (ticking State.reset (levels true true)))).map
    (fun s => (s.position, s.primed, s.aQ, s.bQ)) = some (0, true, true, true) := by decide
/-- Tick 4: (1,0) to (0,0) is the record `0x0`. -/
theorem test_tick_edge :
    (stateOf (step (ticking { atPosition 1 with primed := true, aQ := true } (levels false false)))).map
      (·.position) = some 2 := by decide
/-- Tick 8: (1,1) to (0,0) is `0x0` then `0x8`. -/
theorem test_tick_both : frontEndRecords { atPosition 4 with primed := true, aQ := true, bQ := true } false false =
    [0x0#4, 0x8#4] := by decide
/-- R163: a wait of 2 microseconds at 1.5 MHz takes 3 ticks, one of 0 takes 1. -/
theorem test_waitTicks :
    waitTicks { defaultParams with clkNum := 3, clkDen := 2 } 2 = 3 ∧ waitTicks defaultParams 0 = 1 := by decide

/-! ### The first step after reset runs the word placed for it -/

theorem test_fetch_edges :
    (stateOf (step (State.reset.withFetchWord 8 0x3))).map (·.position) = some 1 ∧
      (stateOf (step (State.reset.withFetchWord 8 0xF))).map (·.position) = some (-1) := by decide
theorem test_fetch_rdpos :
    (stateOf (step (State.reset.withFetchWord 16 0x5000))).map (·.obs) = some [.posRead 0] := by decide
theorem test_fetch_lcdInit :
    (stateOf (step (State.reset.withFetchWord 16 0x1000))).map (·.lcdCw) = some (some 0x1000#16) := by decide
theorem test_fetch_lcdCmd :
    (stateOf (step (ready.withFetchWord 16 0x2001))).map (·.lcdCw) = some (some 0x2001#16) := by decide

/-! ### The companion function (2.13) -/

theorem test_angle : angle (-1896) = -166640625 / 1000000 ∧ angle 1 = 87890625 / 1000000000 := by
  constructor <;> norm_num [angle, modulus]

/-! ### Witnesses: the hypotheses of each statement can be met -/

/-- A state in the middle of `LCD_INIT`, with the enable line high. -/
def midInit : State :=
  { State.reset with
    lcdCw := some 0x1000#16, lcdPc := 4, lcdE := true, lcdD := 3#4
    obs := [.delay 50000, .rs false, .d 3#4, .e true], sched := [.foreground] }

/-- A state before the last micro-operation of `LCD_INIT`. -/
def endInit : State := { State.reset with lcdCw := some 0x1000#16, lcdPc := 73, sched := [.foreground] }

theorem inRange_of_decide {s : State} (hl : -2048 ≤ s.position) (hu : s.position < 2048) : s.positionInRange := ⟨hl, hu⟩

/-- An idle state with its pins at the levels of its trace meets the invariant. -/
theorem idle_inv {s : State} (hp : s.positionInRange) (hc : s.lcdCw = none) (hpc : s.lcdPc = 0) (he : s.lcdE = false)
    (pins : s.pinsMatchTrace) : s.Inv :=
  ⟨hp, by simp only [State.sequencerOk, hc]; exact ⟨hpc, he⟩, pins⟩

theorem midInit_inv : midInit.Inv :=
  ⟨⟨by decide, by decide⟩, (by decide : Instr.lcdInit.isLcdOp = true ∧ 4 < (microProgram defaultParams .lcdInit).length ∧
    true = enableAfter false ((microProgram defaultParams .lcdInit).take 4) ∧ false = !(Instr.lcdInit == .lcdInit)),
    ⟨rfl, rfl, rfl⟩⟩

theorem witness_EncodeOfDecodeIsTheWord :
    decode (.cmd 0x4045#16) = .op (.lcdCursor 5#6 1#1) ∧ decode (.edge 0xF#4) = .op (.edgeB .rising true true) := by
  decide

theorem witness_ReservedWordsAreRefused :
    decodeC 0x6000#16 = .reserved .opcode ∧ (presenting ready [0x6000#16] 1).sched = .foreground :: [] ∧
      (presenting ready [0x6000#16] 1).lcdCw = none ∧ (presenting ready [0x6000#16] 1).cmds = 0x6000#16 :: [] := by
  decide

theorem witness_EdgeAMovesPosition_and_EdgeBMovesPosition :
    (atPosition 2047).position = 2047 ∧ (atPosition (-2048)).position = -2048 ∧ (true = true) ∧ (true ≠ false) := by
  decide

theorem witness_WrapIsOneCorrection :
    ((-2049 : Int) ≤ -2049 ∧ (-2049 : Int) ≤ 2048) ∧ ((-2049 : Int) ≤ 2048 ∧ (2048 : Int) ≤ 2048) := by decide

theorem witness_EdgeStepKeepsRangeAndMovesByOne :
    ∃ t u, (atPosition 2047).positionInRange ∧ exec (decodeE 0xA#4) (atPosition 2047) = .next t ∧
      edgeDelta 0x8#4 = -edgeDelta 0xA#4 ∧ exec (decodeE 0x8#4) t = .next u :=
  ⟨_, _, ⟨by decide, by decide⟩, rfl, by decide, rfl⟩

theorem witness_EdgeSequenceGivesClosedForm :
    let s := { atPosition 2047 with edges := [0xA#4, 0x0#4], sched := edgeTurns 2 }
    s.positionInRange ∧ s.sched = edgeTurns s.edges.length := ⟨⟨by decide, by decide⟩, rfl⟩

theorem witness_WholeTurnsAreInvisible :
    let s := { atPosition (-2048) with edges := [], sched := edgeTurns 0 }
    let s' := { atPosition (-2048) with edges := [0x0#4, 0x8#4], sched := edgeTurns 2 }
    ∃ t t', s.positionInRange ∧ s'.position = s.position ∧ s.sched = edgeTurns s.edges.length ∧
      s'.sched = edgeTurns s'.edges.length ∧ netDelta s'.edges = netDelta s.edges + 4096 * 0 ∧
      netDelta s'.edges = 4096 * 0 ∧ runSteps s.edges.length s = .next t ∧ runSteps s'.edges.length s' = .next t' :=
  ⟨_, _, ⟨by decide, by decide⟩, rfl, rfl, rfl, by decide, by decide, rfl, rfl⟩

theorem witness_WholeTurnsAreInvisible_sweeps :
    (List.replicate 4096 (0x0#4)).length = 4096 ∧ (∀ r ∈ List.replicate 4096 (0x0#4), edgeDelta r = 1) ∧
      (List.replicate 4096 (0x8#4)).length = 4096 ∧ (∀ r ∈ List.replicate 4096 (0x8#4), edgeDelta r = -1) := by
  refine ⟨List.length_replicate, fun r h => ?_, List.length_replicate, fun r h => ?_⟩ <;>
    rw [(List.mem_replicate.1 h).2] <;> rfl

theorem witness_BothChannelsCancel :
    ∃ s1 t, (atPosition 2047).positionInRange ∧ exec (.edgeA .rising true true) (atPosition 2047) = .next s1 ∧
      s1.position = s1.position ∧ exec (.edgeB .rising true true) s1 = .next t :=
  ⟨_, _, ⟨by decide, by decide⟩, rfl, rfl, rfl⟩

theorem witness_BothChannelsCancel_reversed :
    ∃ s1 t, (atPosition (-2048)).positionInRange ∧ exec (.edgeB .rising true true) (atPosition (-2048)) = .next s1 ∧
      s1.position = s1.position ∧ exec (.edgeA .rising true true) s1 = .next t :=
  ⟨_, _, ⟨by decide, by decide⟩, rfl, rfl, rfl⟩

theorem witness_RdposReadsPosition :
    let s := { atPosition (-2048) with cfg := { defaultParams with posW := 13 } }
    s.lcdCw = none ∧ s.positionInRange ∧ 13 ≤ s.cfg.posW := ⟨rfl, ⟨by decide, by decide⟩, by decide⟩

theorem witness_RdposReadsPosition_patterns :
    (atPosition (-2048)).cfg.posW = 16 ∧ (atPosition (-2048)).position = -2048 ∧ (atPosition (-1)).position = -1 ∧
      (atPosition 2047).position = 2047 := by decide

theorem witness_OnlyEdgesMovePosition :
    let s := { State.reset with edges := [0x0#4], sched := [.edge] }
    ∃ t u, step s = .next t ∧ t.position ≠ s.position ∧ Instr.rdpos.isEdge = false ∧ exec .rdpos s = .next u :=
  ⟨_, _, rfl, by decide, rfl, rfl⟩

theorem witness_ReadsSeeConsistentPriorPositions :
    let s := { State.reset with edges := [0xA#4], cmds := [0x5000#16], sched := [.edge, .foreground] }
    ∃ t, s.positionInRange ∧ eventLevel s.sched = true ∧ runSteps 2 s = .next t :=
  ⟨_, ⟨by decide, by decide⟩, rfl, rfl⟩

theorem witness_LcdInitIsAccepted_and_LcdBeforeInitIsRefused :
    State.reset.lcdCw = none ∧ State.reset.lcdReady = false := by decide

theorem witness_ReadyBlockAcceptsLcdOperations_and_SecondInitIsRefused :
    ready.lcdCw = none ∧ ready.lcdReady = true := by decide

theorem witness_BusyBlockAcceptsNothing :
    ∃ t, midInit.lcdBusy = true ∧ Instr.rdpos.isEdge = false ∧ midInit.sched = .foreground :: [] ∧
      step midInit = .next t := ⟨_, rfl, rfl, rfl, rfl⟩

theorem witness_SequencerAcceptsAndSteps_accept :
    (presenting ready [0x5000#16] 1).sched = .foreground :: [] ∧ (presenting ready [0x5000#16] 1).lcdCw = none ∧
      (presenting ready [0x5000#16] 1).cmds = 0x5000#16 :: [] ∧
      decodeC 0x0000#16 = .reserved .opcode ∧ decodeC 0x5000#16 = .op .rdpos ∧ decodeC 0x1000#16 = .op .lcdInit ∧
      decodeC 0x2000#16 = .op (.lcdCmd 0#8) ∧ (Instr.lcdCmd 0#8).isLcdOp = true ∧ Instr.lcdCmd 0#8 ≠ .lcdInit ∧
      ready.lcdReady = true ∧ State.reset.lcdReady = false := by decide

theorem witness_SequencerAcceptsAndSteps_micro :
    midInit.sched = .foreground :: [] ∧ midInit.lcdCw = some 0x1000#16 ∧ decodeC 0x1000#16 = .op .lcdInit ∧
      (microProgram midInit.cfg .lcdInit)[midInit.lcdPc]? = some (.wait 1) ∧
      (microProgram endInit.cfg .lcdInit)[endInit.lcdPc]? = some (.wait 2000) ∧
      endInit.lcdPc + 1 = (microProgram endInit.cfg .lcdInit).length := by decide

theorem witness_PostDelayRule_and_CursorSendsItsAddress :
    defaultParams.cmdClear = 0x01#8 ∧ defaultParams.cmdSetDdram = 0x80#8 := by decide

theorem witness_LcdOperationRunsToCompletion_init :
    let s := presenting State.reset [0x1000#16] ((microProgram defaultParams .lcdInit).length + 1)
    s.Inv ∧ s.lcdCw = none ∧ s.cmds = 0x1000#16 :: [] ∧ decodeC 0x1000#16 = .op .lcdInit ∧
      Instr.lcdInit.isLcdOp = true ∧ s.lcdReady = !(Instr.lcdInit == .lcdInit) ∧
      s.sched = foregroundTurns ((microProgram s.cfg .lcdInit).length + 1) :=
  ⟨idle_inv ⟨by decide, by decide⟩ rfl rfl rfl ⟨rfl, rfl, rfl⟩, rfl, rfl, by decide, rfl, by decide, rfl⟩

theorem witness_LcdOperationRunsToCompletion_ready :
    let s := presenting ready [0x2001#16] ((microProgram defaultParams (.lcdCmd 1#8)).length + 1)
    s.Inv ∧ s.lcdCw = none ∧ s.cmds = 0x2001#16 :: [] ∧ decodeC 0x2001#16 = .op (.lcdCmd 1#8) ∧
      (Instr.lcdCmd 1#8).isLcdOp = true ∧ s.lcdReady = !(Instr.lcdCmd 1#8 == .lcdInit) ∧
      s.sched = foregroundTurns ((microProgram s.cfg (.lcdCmd 1#8)).length + 1) :=
  ⟨idle_inv ⟨by decide, by decide⟩ rfl rfl rfl ⟨rfl, rfl, rfl⟩, rfl, rfl, by decide, rfl, by decide, rfl⟩

theorem witness_PseudoOperationRunsInOrder :
    let p := Pseudo.frame [0x48#8]
    let s := presenting ready (pseudoWords defaultParams p)
      ((expand defaultParams p).length + (pseudoProgram defaultParams p).length)
    s.Inv ∧ s.lcdCw = none ∧ s.lcdReady = true ∧ s.cmds = pseudoWords s.cfg p ∧
      s.sched = foregroundTurns ((expand s.cfg p).length + (pseudoProgram s.cfg p).length) :=
  ⟨idle_inv ⟨by decide, by decide⟩ rfl rfl rfl ⟨rfl, rfl, rfl⟩, rfl, rfl, rfl, rfl⟩

theorem witness_InitLatchesTwelveFrames :
    defaultParams.cmdFunctionSet = 0x28#8 ∧ defaultParams.cmdDisplayCtrl = 0x0C#8 ∧
      defaultParams.cmdEntryMode = 0x06#8 ∧ defaultParams.cmdClear = 0x01#8 := by decide

theorem witness_EveryProgramIsBusStable : (Instr.lcdCursor 63#6 1#1).isLcdOp = true := by decide

theorem witness_LinesHeldAroundTheEnablePulse :
    ∃ t, midInit.Inv ∧ step midInit = .next t ∧ (midInit.lcdE = true ∨ t.lcdE = true) ∧
      (∀ inp turns, midInit.sched = .tick inp :: turns → inp.rstN = true) :=
  ⟨_, midInit_inv, rfl, .inl rfl, by intro inp turns h; cases h⟩

theorem witness_ResetValues : eventLevel [.edge, .foreground] = true := by decide

theorem witness_ResetTickAbandonsEverything :
    (ticking midInit ⟨false, true, true, true, 0#16, false⟩).sched =
      .tick ⟨false, true, true, true, 0#16, false⟩ :: [] ∧ (⟨false, true, true, true, 0#16, false⟩ : TickIn).rstN = false := by
  decide

theorem witness_EveryStepKeepsTheInvariant_and_NoStepFaults : ∃ t, midInit.Inv ∧ step midInit = .next t :=
  ⟨_, midInit_inv, rfl⟩

theorem witness_WellBehavedHostIsNeverRefused :
    let s := { State.reset with cmds := [0x5000#16, 0x1000#16, 0x3041#16], sched := [.foreground, .edge] }
    s.Inv ∧ s.hostOk ∧ eventLevel s.sched = true :=
  ⟨idle_inv ⟨by decide, by decide⟩ rfl rfl rfl ⟨rfl, rfl, rfl⟩, (by decide : hostContract false
    [0x5000#16, 0x1000#16, 0x3041#16] = true), rfl⟩

theorem witness_UnitLIgnoresUnitQ :
    let s := { State.reset with edges := [0xA#4], cmds := [0x5000#16], sched := [.edge, .foreground] }
    let s' := { atPosition 7 with cmds := [0x5000#16], sched := [.foreground] }
    ∃ t t', s'.lcdView = s.lcdView ∧ eventLevel s.sched = true ∧ eventLevel s'.sched = true ∧
      s'.sched.count .foreground = s.sched.count .foreground ∧ runSteps s.sched.length s = .next t ∧
      runSteps s'.sched.length s' = .next t' :=
  ⟨_, _, rfl, rfl, rfl, rfl, rfl, rfl⟩

theorem witness_ReadyIsSetByInitAlone_set :
    ∃ t, step endInit = .next t ∧ endInit.lcdReady = false ∧ t.lcdReady = true := ⟨_, rfl, rfl, rfl⟩

theorem witness_ReadyIsSetByInitAlone_cleared :
    ∃ t, step (ticking ready ⟨false, true, true, true, 0#16, false⟩) = .next t ∧
      (ticking ready ⟨false, true, true, true, 0#16, false⟩).lcdReady = true ∧ t.lcdReady = false := ⟨_, rfl, rfl, rfl⟩

theorem witness_TraceIsAppendedTo_and_ParametersAreFixed :
    ∃ t, step midInit = .next t ∧ (∀ inp turns, midInit.sched = .tick inp :: turns → inp.rstN = true) :=
  ⟨_, rfl, by intro inp turns h; cases h⟩

theorem witness_StepRunsTheDecodedOperation :
    ({ State.reset with edges := [0x2#4], sched := [.edge] } : State).edges = 0x2#4 :: [] ∧
      decode (.edge 0x2#4) = .op (.edgeA .falling true false) ∧
      (presenting ready [0x307F#16] 1).sched = .foreground :: [] ∧ (presenting ready [0x307F#16] 1).lcdCw = none ∧
      (presenting ready [0x307F#16] 1).cmds = 0x307F#16 :: [] ∧ decode (.cmd 0x307F#16) = .op (.lcdData 0x7F#8) := by
  decide

theorem witness_FrontEndTick :
    (ticking State.reset (levels true false)).sched = .tick (levels true false) :: [] ∧
      (levels true false).rstN = true ∧ State.reset.lcdCw = none ∧ (levels true false).cmdValid = false ∧
      State.reset.primed = false ∧ ({ State.reset with primed := true } : State).primed = true := by decide

theorem witness_RdposInATickReadsThePriorPosition :
    (⟨true, true, false, true, 0x5000#16, false⟩ : TickIn).cmdValid = true ∧
      (⟨true, true, false, true, 0x5000#16, false⟩ : TickIn).cmdWord = 0x5000#16 ∧
      (⟨true, true, false, true, 0x5000#16, false⟩ : TickIn).rstN = true ∧ State.reset.lcdCw = none := by decide

theorem witness_BothChannelsInATickCancel :
    let s := ticking { atPosition 2047 with primed := true } (levels true true)
    ∃ t, s.positionInRange ∧ s.primed = true ∧ (levels true true).encA ≠ s.aQ ∧ (levels true true).encB ≠ s.bQ ∧
      step s = .next t := ⟨_, ⟨by decide, by decide⟩, rfl, by decide, by decide, rfl⟩

theorem witness_UnprimedTickIgnoresOldLevels :
    (ticking State.reset (levels true true)).sched = .tick (levels true true) :: [] ∧
      (ticking State.reset (levels true true)).primed = false := by decide

theorem witness_TickIsAgentSteps :
    ∃ t, (levels true true).rstN = true ∧ step (ticking State.reset (levels true true)) = .next t := ⟨_, rfl, rfl⟩

/-- The micro-operation after the hold of the first enable pulse of `LCD_INIT` is `SET_E(0)`. -/
theorem witness_PinWriteTakesOneTick :
    (ticking { midInit with lcdPc := 5 } (levels true true)).sched = .tick (levels true true) :: [] ∧
      (levels true true).rstN = true ∧
      (ticking { midInit with lcdPc := 5 } (levels true true)).currentMicro = some (.setE false) ∧
      ∀ d, MicroOp.setE false ≠ .wait d := ⟨rfl, rfl, by decide, by simp⟩

/-- R151: a reserved word presented in reset is ignored (notes/assumptions/20.md). -/
theorem test_reset_ignores_word :
    (stateOf (step (ticking midInit ⟨false, true, true, true, 0xFFFF#16, false⟩))).map (·.lcdCw) = some none := by decide

/-- Three ticks at 3 MHz, and a wait of 1 microsecond: the wait takes exactly three. -/
theorem witness_WaitTakesItsTicks :
    let s := { midInit with cfg := { defaultParams with clkNum := 3 }
                            sched := [levels true true, levels true true, levels true true].map .tick }
    s.currentMicro = some (.wait 1) ∧ s.waited = 0 ∧ waitTicks s.cfg 1 = 3 ∧ (levels true true).rstN = true ∧
      (levels true true).hold = false := by decide

theorem witness_AngleOfPosition_and_AngleIsExact :
    ((-2048 : Int) ≤ -2048 ∧ (-2048 : Int) < 2048) ∧ ((-2048 : Int) ≤ 2047 ∧ (2047 : Int) < 2048) := by decide

end Sys2Proof.Tests
end

section
/-! The decoder and the encoder of the command port: an operation of unit L decodes from its own word (R59), and no
command word stands for an edge operation (R60). -/

namespace Sys2Proof

theorem fields_of_eq {cw : CmdWord} {o z : BitVec 4} {p : Byte} (h : cw = o ++ z ++ p) :
    opcodeField cw = o ∧ zeroField cw = z ∧ payloadField cw = p := by
  subst h
  exact ⟨opcodeField_fields o z p, zeroField_fields o z p, payloadField_fields o z p⟩

theorem decodeC_wordLcdCmd (byte : Byte) : decodeC (wordLcdCmd byte) = .op (.lcdCmd byte) := by
  obtain ⟨ho, hz, hp⟩ := fields_of_eq (cw := wordLcdCmd byte) (o := 0x2#4) (z := 0x0#4) (p := byte) rfl
  simp [decodeC, ho, hz, hp]

theorem decodeC_wordLcdData (byte : Byte) : decodeC (wordLcdData byte) = .op (.lcdData byte) := by
  obtain ⟨ho, hz, hp⟩ := fields_of_eq (cw := wordLcdData byte) (o := 0x3#4) (z := 0x0#4) (p := byte) rfl
  simp [decodeC, ho, hz, hp]

theorem decodeC_wordLcdCursor (col : BitVec 6) (row : BitVec 1) :
    decodeC (wordLcdCursor col row) = .op (.lcdCursor col row) := by
  revert col row; decide

/-- R59: the word of an operation of the command port decodes to that operation. -/
theorem decodeC_of_encode {i : Instr} {cw : CmdWord} (h : encode i = .cmd cw) : decodeC cw = .op i := by
  cases i with
  | edgeA p a b => cases h
  | edgeB p a b => cases h
  | rdpos => cases h; decide
  | lcdInit => cases h; decide
  | lcdCmd byte => cases h; exact decodeC_wordLcdCmd byte
  | lcdData byte => cases h; exact decodeC_wordLcdData byte
  | lcdCursor col row => cases h; exact decodeC_wordLcdCursor col row

/-- R59, R60: an edge operation arrives on the other port. -/
theorem isEdge_of_decodeC {cw : CmdWord} {i : Instr} (h : decodeC cw = .op i) : i.isEdge = false := by
  unfold decodeC at h
  split_ifs at h <;> cases h <;> rfl

end Sys2Proof
end

section
/-! What a step can do, said once: the foreground agent's part, which a turn of the event level and a clock tick share,
and then the whole step. -/

namespace Sys2Proof.Machine

theorem isInitWord_iff (cw : CmdWord) : isInitWord cw = true ↔ decodeC cw = .op .lcdInit := by
  simp [isInitWord]

theorem uprog_of_decodeC {cw : CmdWord} {i : Instr} (h : decodeC cw = .op i) (c : Params) :
    uprog c cw = microProgram c i := by
  simp only [uprog, h]

/-- What the foreground agent's part of a step can do to the block, from the state whose queues the step has
consumed (R29, R94, R163). -/
inductive ForegroundMove (s : State) : State → Prop
  /-- Nothing: no word is accepted, and no micro-operation is performed. -/
  | pass : ForegroundMove s s
  /-- A clock tick passes within a `WAIT` (R163). -/
  | spend : ForegroundMove s s.spendTick
  /-- `RDPOS` (R79). -/
  | read : ForegroundMove s (s.emit (.posRead s.position))
  /-- The acceptance of an LCD operation: `LCD_INIT` while `lcd_ready = 0`, any other while it is 1 (R94). -/
  | accept (i : Instr) (cw : CmdWord) (idle : s.lcdCw = none) (word : decodeC cw = .op i) (lcd : i.isLcdOp = true)
      (ready : s.lcdReady = !(i == .lcdInit)) : ForegroundMove s (s.beginOp cw)
  /-- A micro-operation that is not the last of its micro-program (R94). -/
  | advance (cw : CmdWord) (m : MicroOp) (busy : s.lcdCw = some cw) (current : (uprog s.cfg cw)[s.lcdPc]? = some m)
      (more : s.lcdPc + 1 ≠ (uprog s.cfg cw).length) : ForegroundMove s (s.perform m).nextMicro
  /-- The last micro-operation of a micro-program (R94, R95). -/
  | finish (cw : CmdWord) (m : MicroOp) (busy : s.lcdCw = some cw) (current : (uprog s.cfg cw)[s.lcdPc]? = some m)
      (last : s.lcdPc + 1 = (uprog s.cfg cw).length) : ForegroundMove s ((s.perform m).finishOp (isInitWord cw))

theorem acceptInit_move {s t : State} (h : acceptInit wordLcdInit s = .next t) : ForegroundMove s t := by
  obtain ⟨-, rfl⟩ | ⟨idle, ready, rfl⟩ := acceptInit_next h
  · exact .pass
  · exact .accept .lcdInit _ (State.idle_of_not_lcdBusy idle) (decodeC_of_encode rfl) rfl ready

theorem acceptWhenReady_move {i : Instr} {cw : CmdWord} {s t : State} (word : encode i = .cmd cw)
    (lcd : i.isLcdOp = true) (notInit : i ≠ .lcdInit) (h : acceptWhenReady cw s = .next t) : ForegroundMove s t := by
  obtain ⟨-, rfl⟩ | ⟨idle, ready, rfl⟩ := acceptWhenReady_next h
  · exact .pass
  · exact .accept i cw (State.idle_of_not_lcdBusy idle) (decodeC_of_encode word) lcd (by simp [ready, notInit])

/-- An operation of the command port is a move of the foreground agent. -/
theorem exec_move {i : Instr} {s t : State} (command : i.isEdge = false) (h : exec i s = .next t) :
    ForegroundMove s t := by
  cases i with
  | edgeA p a b => cases command
  | edgeB p a b => cases command
  | rdpos =>
    obtain ⟨-, rfl⟩ | ⟨-, rfl⟩ := execRdpos_next h
    · exact .pass
    · exact .read
  | lcdInit => exact acceptInit_move h
  | lcdCmd byte => exact acceptWhenReady_move (i := .lcdCmd byte) rfl rfl nofun h
  | lcdData byte => exact acceptWhenReady_move (i := .lcdData byte) rfl rfl nofun h
  | lcdCursor col row => exact acceptWhenReady_move (i := .lcdCursor col row) rfl rfl nofun h

theorem acceptWord_move {cw : CmdWord} {s t : State} (h : acceptWord cw s = .next t) : ForegroundMove s t := by
  unfold acceptWord at h
  split at h
  · next i word => exact exec_move (isEdge_of_decodeC word) h
  · cases h

theorem microStep_move {cw : CmdWord} {s t : State} (busy : s.lcdCw = some cw) (h : microStep cw s = .next t) :
    ForegroundMove s t := by
  obtain ⟨m, current, ⟨last, rfl⟩ | ⟨more, rfl⟩⟩ := microStep_next h
  · exact .finish cw m busy current last
  · exact .advance cw m busy current more

/-- A turn of the foreground agent is one of its moves, after the word it accepts has left the queue. -/
theorem foregroundTurn_move {s t : State} (h : foregroundTurn s = .next t) :
    ∃ cws, ForegroundMove (s.setCmds cws) t := by
  obtain ⟨cw, busy, h⟩ | ⟨-, -, rfl⟩ | ⟨cw, rest, -, -, h⟩ := foregroundTurn_next h
  · exact ⟨s.cmds, microStep_move busy h⟩
  · exact ⟨t.cmds, .pass⟩
  · exact ⟨rest, acceptWord_move h⟩

theorem tickForeground_move {inp : TickIn} {s t : State} (h : tickForeground inp s = .next t) :
    ForegroundMove s t := by
  obtain ⟨d, -, -, rfl⟩ | ⟨cw, busy, -, h⟩ | ⟨-, -, rfl⟩ | ⟨-, -, h⟩ := tickForeground_next h
  · exact .spend
  · exact microStep_move busy h
  · exact .pass
  · exact acceptWord_move h

/-- What a step that answers a next state can do, with whose turn it was. -/
inductive StepMove (s : State) : State → Prop
  /-- No turn is left. -/
  | stay (noTurn : s.sched = []) : StepMove s s
  /-- A turn of the edge agent with no record waiting. -/
  | edgeIdle (turns : List Turn) (turn : s.sched = .edge :: turns) : StepMove s (s.setSched turns)
  /-- A turn of the edge agent that performs the next record (R62, R74, R75). -/
  | edge (turns : List Turn) (r : EdgeRec) (rest : List EdgeRec) (turn : s.sched = .edge :: turns)
      (records : s.edges = r :: rest) :
      StepMove s (((s.setSched turns).setEdges rest).setPosition (wrap (s.position + edgeDelta r)))
  /-- A turn of the foreground agent. -/
  | foreground (turns : List Turn) (cws : List CmdWord) (t : State) (turn : s.sched = .foreground :: turns)
      (move : ForegroundMove ((s.setSched turns).setCmds cws) t) : StepMove s t
  /-- A clock tick with `rst_n` low (R151). -/
  | reset (inp : TickIn) (turns : List Turn) (turn : s.sched = .tick inp :: turns) (low : inp.rstN = false) :
      StepMove s (s.setSched turns).resetBlock
  /-- A clock tick outside reset: the foreground agent's part and then the front end (R82). -/
  | tick (inp : TickIn) (turns : List Turn) (u : State) (turn : s.sched = .tick inp :: turns)
      (high : inp.rstN = true) (move : ForegroundMove (s.setSched turns) u) :
      StepMove s (frontEnd inp.encA inp.encB u)

theorem step_move {s t : State} (h : step s = .next t) : StepMove s t := by
  obtain ⟨noTurn, rfl⟩ | ⟨turn, turns, hs, h⟩ := step_next h
  · exact .stay noTurn
  cases turn with
  | edge =>
    obtain ⟨-, rfl⟩ | ⟨r, rest, records, h⟩ := edgeTurn_next h
    · exact .edgeIdle turns hs
    · rw [exec_decodeE] at h
      cases h
      exact .edge turns r rest hs records
  | foreground =>
    obtain ⟨cws, move⟩ := foregroundTurn_move h
    exact .foreground turns cws t hs move
  | tick inp =>
    obtain ⟨low, rfl⟩ | ⟨high, u, foreground, rfl⟩ := tick_next h
    · exact .reset inp turns hs low
    · exact .tick inp turns u hs high (tickForeground_move foreground)

end Sys2Proof.Machine
end

section
/-! What the front end and the foreground agent's part leave unchanged. -/

namespace Sys2Proof.Machine

/-- The front end writes the position and the sample, and nothing else (R82). -/
theorem frontEnd_eq (a b : Bool) (s : State) :
    frontEnd a b s = (s.setPosition (frontEnd a b s).position).latchSample a b := by
  unfold frontEnd
  split_ifs <;> rfl

theorem frontEnd_of_unprimed {s : State} (h : s.primed = false) (a b : Bool) :
    frontEnd a b s = s.latchSample a b := by
  simp [frontEnd, h]

section frontEnd
variable (a b : Bool) (s : State)
@[simp] theorem frontEnd_lcdRs : (frontEnd a b s).lcdRs = s.lcdRs := by rw [frontEnd_eq]; rfl
@[simp] theorem frontEnd_lcdE : (frontEnd a b s).lcdE = s.lcdE := by rw [frontEnd_eq]; rfl
@[simp] theorem frontEnd_lcdD : (frontEnd a b s).lcdD = s.lcdD := by rw [frontEnd_eq]; rfl
@[simp] theorem frontEnd_lcdReady : (frontEnd a b s).lcdReady = s.lcdReady := by rw [frontEnd_eq]; rfl
@[simp] theorem frontEnd_lcdCw : (frontEnd a b s).lcdCw = s.lcdCw := by rw [frontEnd_eq]; rfl
@[simp] theorem frontEnd_lcdPc : (frontEnd a b s).lcdPc = s.lcdPc := by rw [frontEnd_eq]; rfl
@[simp] theorem frontEnd_obs : (frontEnd a b s).obs = s.obs := by rw [frontEnd_eq]; rfl
@[simp] theorem frontEnd_cfg : (frontEnd a b s).cfg = s.cfg := by rw [frontEnd_eq]; rfl
end frontEnd

namespace ForegroundMove
variable {s t : State}

/-- R16: the foreground agent leaves the position alone. -/
theorem position_eq (h : ForegroundMove s t) : t.position = s.position := by cases h <;> simp

/-- R24: the foreground agent leaves the parameters alone. -/
theorem cfg_eq (h : ForegroundMove s t) : t.cfg = s.cfg := by cases h <;> simp

theorem primed_eq (h : ForegroundMove s t) : t.primed = s.primed := by cases h <;> simp

/-- R27: the trace stays, or one event is appended to it. -/
theorem obs_cases (h : ForegroundMove s t) : t.obs = s.obs ∨ ∃ ev, t.obs = s.obs ++ [ev] := by
  cases h with
  | pass => exact .inl rfl
  | spend => exact .inl rfl
  | read => exact .inr ⟨_, rfl⟩
  | accept => exact .inl rfl
  | advance cw m => exact .inr ⟨eventOf m, by simp⟩
  | finish cw m => exact .inr ⟨eventOf m, by simp⟩

/-- R95: the foreground agent never clears `lcd_ready`. -/
theorem keeps_ready (h : ForegroundMove s t) (ready : s.lcdReady = true) : t.lcdReady = true := by
  cases h <;> simp [ready]

/-- R95: the foreground agent sets `lcd_ready` with the last micro-operation of `LCD_INIT`, and becomes idle. -/
theorem finishes_init_of_sets_ready (h : ForegroundMove s t) (notReady : s.lcdReady = false)
    (ready : t.lcdReady = true) :
    ∃ cw, s.lcdCw = some cw ∧ decodeC cw = .op .lcdInit ∧
      s.lcdPc + 1 = (microProgram s.cfg .lcdInit).length ∧ t.lcdCw = none := by
  cases h with
  | finish cw m busy _ last =>
    have word : decodeC cw = .op .lcdInit := (isInitWord_iff cw).mp (by simpa [notReady] using ready)
    exact ⟨cw, busy, word, by rwa [uprog_of_decodeC word] at last, rfl⟩
  | _ => simp [notReady] at ready

end ForegroundMove

end Sys2Proof.Machine
end

section
/-! The invariant of the block: how each part of it goes through the moves of a step. -/

namespace Sys2Proof.Machine

/-! ### The micro-programs -/

@[simp] theorem enableAfter_writeNibble (e : Bool) (c : Params) (n : Nibble) :
    enableAfter e (writeNibble c n) = false := rfl

@[simp] theorem enableAfter_writeByte (e : Bool) (c : Params) (rs : Bool) (v : Byte) :
    enableAfter e (writeByte c rs v) = false := rfl

/-- R102: every micro-program of an LCD operation ends with the enable line low. -/
theorem enableAfter_microProgram {i : Instr} (lcd : i.isLcdOp = true) (c : Params) :
    enableAfter false (microProgram c i) = false := by
  cases i with
  | edgeA p a b => cases lcd
  | edgeB p a b => cases lcd
  | rdpos => cases lcd
  | lcdInit => simp only [microProgram, uprogInit, enableAfter_append, enableAfter_writeByte]
  | lcdCmd byte => exact enableAfter_writeByte ..
  | lcdData byte => exact enableAfter_writeByte ..
  | lcdCursor col row => exact enableAfter_writeByte ..

theorem microProgram_length_pos {i : Instr} (lcd : i.isLcdOp = true) (c : Params) :
    0 < (microProgram c i).length := by
  cases i with
  | edgeA p a b => cases lcd
  | edgeB p a b => cases lcd
  | rdpos => cases lcd
  | lcdInit => exact Nat.succ_pos _
  | lcdCmd byte => exact Nat.succ_pos _
  | lcdData byte => exact Nat.succ_pos _
  | lcdCursor col row => exact Nat.succ_pos _

/-- The enable line is where the micro-operation leaves it (R96). -/
theorem perform_lcdE (s : State) (m : MicroOp) : (s.perform m).lcdE = enableAfter s.lcdE [m] := by
  cases m <;> rfl

/-! ### The sequencer's part -/

theorem sequencerOk_idle {s : State} (idle : s.lcdCw = none) : s.sequencerOk ↔ s.lcdPc = 0 ∧ s.lcdE = false := by
  simp only [State.sequencerOk, idle]

theorem sequencerOk_busy {s : State} {cw : CmdWord} (busy : s.lcdCw = some cw) :
    s.sequencerOk ↔ ∃ i, decodeC cw = .op i ∧ i.isLcdOp = true ∧ s.lcdPc < (microProgram s.cfg i).length ∧
      s.lcdE = enableAfter false ((microProgram s.cfg i).take s.lcdPc) ∧ s.lcdReady = !(i == .lcdInit) := by
  cases hd : decodeC cw <;> simp [State.sequencerOk, busy, hd]

/-- Performing the micro-operation at `lcd_pc` leaves the enable line where the program up to it and with it does. -/
theorem perform_lcdE_eq_take_succ {s : State} {m : MicroOp} {prog : List MicroOp} (current : prog[s.lcdPc]? = some m)
    (line : s.lcdE = enableAfter false (prog.take s.lcdPc)) :
    (s.perform m).lcdE = enableAfter false (prog.take (s.lcdPc + 1)) := by
  rw [List.take_add_one, current, enableAfter_append, ← line]
  exact perform_lcdE s m

theorem ForegroundMove.keeps_sequencerOk {s t : State} (h : ForegroundMove s t) (ok : s.sequencerOk) :
    t.sequencerOk := by
  cases h with
  | pass => exact ok
  | spend => exact ok
  | read => exact ok
  | accept i cw idle word lcd ready =>
    obtain ⟨-, low⟩ := (sequencerOk_idle idle).mp ok
    exact (sequencerOk_busy rfl).mpr ⟨i, word, lcd, microProgram_length_pos lcd _, low, ready⟩
  | advance cw m busy current more =>
    obtain ⟨i, word, lcd, inside, line, ready⟩ := (sequencerOk_busy busy).mp ok
    rw [uprog_of_decodeC word] at current more
    have stillInside : s.lcdPc + 1 < (microProgram s.cfg i).length := by omega
    refine (sequencerOk_busy (cw := cw) (by simpa using busy)).mpr ⟨i, word, lcd, ?_, ?_, by simpa using ready⟩
    · simpa using stillInside
    · simpa using perform_lcdE_eq_take_succ current line
  | finish cw m busy current last =>
    obtain ⟨i, word, lcd, -, line, -⟩ := (sequencerOk_busy busy).mp ok
    rw [uprog_of_decodeC word] at current last
    have low : (s.perform m).lcdE = false := by
      rw [perform_lcdE_eq_take_succ current line, last, List.take_length, enableAfter_microProgram lcd]
    exact (sequencerOk_idle rfl).mpr ⟨rfl, low⟩

/-! ### The pins' part -/

theorem scanEvent_posRead (k : Scan) (v : Int) : scanEvent k (.posRead v) = k := rfl

/-- Each micro-operation writes the pin beside the event it appends (R19, R96). -/
theorem perform_pinsMatchTrace {s : State} (h : s.pinsMatchTrace) (m : MicroOp) : (s.perform m).pinsMatchTrace := by
  obtain ⟨rs, d, e⟩ := h
  unfold State.pinsMatchTrace
  rw [State.perform_obs, scan_emit]
  cases m with
  | setRs v => exact ⟨rfl, d, e⟩
  | setD n => exact ⟨rs, rfl, e⟩
  | setE v =>
    simp only [eventOf, scanEvent]
    split_ifs <;> exact ⟨rs, d, rfl⟩
  | wait t => exact ⟨rs, d, e⟩

theorem ForegroundMove.keeps_pinsMatchTrace {s t : State} (h : ForegroundMove s t) (pins : s.pinsMatchTrace) :
    t.pinsMatchTrace := by
  cases h with
  | pass => exact pins
  | spend => exact pins
  | read => rwa [State.pinsMatchTrace, State.emit_obs, scan_emit, scanEvent_posRead]
  | accept => exact pins
  | advance cw m => exact perform_pinsMatchTrace pins m
  | finish cw m => exact perform_pinsMatchTrace pins m

/-! ### The invariant -/

theorem ForegroundMove.keeps_inv {s t : State} (h : ForegroundMove s t) (inv : s.Inv) : t.Inv where
  position := by simpa only [State.positionInRange, h.position_eq] using inv.position
  sequencer := h.keeps_sequencerOk inv.sequencer
  pins := h.keeps_pinsMatchTrace inv.pins

theorem frontEnd_inRange {s : State} (h : s.positionInRange) (a b : Bool) : (frontEnd a b s).positionInRange := by
  unfold frontEnd
  split_ifs
  · exact takeEdge_inRange (takeEdge_inRange h _ a b) _ a b
  · exact takeEdge_inRange h _ a b
  · exact takeEdge_inRange h _ a b
  · exact h
  · exact h

theorem frontEnd_keeps_inv {s : State} (inv : s.Inv) (a b : Bool) : (frontEnd a b s).Inv where
  position := frontEnd_inRange inv.position a b
  sequencer := by simpa [State.sequencerOk] using inv.sequencer
  pins := by simpa [State.pinsMatchTrace] using inv.pins

theorem setSched_keeps_inv {s : State} (inv : s.Inv) (turns : List Turn) : (s.setSched turns).Inv :=
  ⟨inv.position, inv.sequencer, inv.pins⟩

theorem setCmds_keeps_inv {s : State} (inv : s.Inv) (cws : List CmdWord) : (s.setCmds cws).Inv :=
  ⟨inv.position, inv.sequencer, inv.pins⟩

theorem edgeDelta_inRange {s : State} (h : s.positionInRange) (r : EdgeRec) :
    -half ≤ wrap (s.position + edgeDelta r) ∧ wrap (s.position + edgeDelta r) < half :=
  takeEdge_inRange h _ _ _

/-- The block after reset is idle, in range and has driven no pin (R31). -/
theorem resetBlock_inv (s : State) : s.resetBlock.Inv where
  position := ⟨(by decide : -half ≤ 0), (by decide : 0 < half)⟩
  sequencer := ⟨rfl, rfl⟩
  pins := ⟨rfl, rfl, rfl⟩

theorem StepMove.keeps_inv {s t : State} (h : StepMove s t) (inv : s.Inv) : t.Inv := by
  cases h with
  | stay => exact inv
  | edgeIdle turns => exact setSched_keeps_inv inv turns
  | edge turns r => exact ⟨edgeDelta_inRange inv.position r, inv.sequencer, inv.pins⟩
  | foreground turns cws _ _ move => exact move.keeps_inv (setCmds_keeps_inv (setSched_keeps_inv inv turns) cws)
  | reset => exact resetBlock_inv _
  | tick inp turns u _ _ move => exact frontEnd_keeps_inv (move.keeps_inv (setSched_keeps_inv inv turns)) _ _

/-- Settles O41: every move of a step keeps each part of the invariant. -/
theorem everyStepKeepsTheInvariant : Obligations.EveryStepKeepsTheInvariant :=
  fun _ _ inv h => (step_move h).keeps_inv inv

/-- Settles O40: the state after reset is a block just reset. -/
theorem resetMeetsTheInvariant : Obligations.ResetMeetsTheInvariant := resetBlock_inv State.reset

end Sys2Proof.Machine
end

section
/-! What a step can change of one piece of the state. -/

namespace Sys2Proof.Machine

/-- Settles O15: no move of the foreground agent changes the position, and the other turns are the edge agent's and the
clock's. -/
theorem onlyEdgesMovePosition : Obligations.OnlyEdgesMovePosition := by
  refine ⟨fun s t h changed => ?_, fun i s t command h => (exec_move command h).position_eq⟩
  cases step_move h with
  | stay => exact absurd rfl changed
  | edgeIdle => exact absurd rfl changed
  | edge turns r rest turn records => exact .inl ⟨turns, turn, by simp [records]⟩
  | foreground _ _ _ _ move => exact absurd move.position_eq changed
  | reset inp turns turn => exact .inr ⟨inp, turns, turn⟩
  | tick inp turns u turn => exact .inr ⟨inp, turns, turn⟩

/-- A level that stays as it was is neither set nor cleared. -/
theorem neither_set_nor_cleared {r : Bool} {P Q : Prop} :
    (r = false → r = true → P) ∧ (r = true → r = false → Q) := by
  cases r <;> simp

/-- Settles O45: only a foreground move sets `lcd_ready`, with the last micro-operation of `LCD_INIT`, and only a tick
in reset clears it. -/
theorem readyIsSetByInitAlone : Obligations.ReadyIsSetByInitAlone := by
  intro s t h
  cases step_move h with
  | stay => exact neither_set_nor_cleared
  | edgeIdle => exact neither_set_nor_cleared
  | edge => exact neither_set_nor_cleared
  | foreground _ _ _ _ move =>
    exact ⟨move.finishes_init_of_sets_ready, fun ready cleared => by simp [move.keeps_ready ready] at cleared⟩
  | reset inp turns turn low => exact ⟨fun _ ready => (nomatch ready), fun _ _ => ⟨inp, turns, turn, low⟩⟩
  | tick inp turns u _ _ move =>
    simp only [frontEnd_lcdReady, frontEnd_lcdCw]
    exact ⟨move.finishes_init_of_sets_ready, fun ready cleared => by simp [move.keeps_ready ready] at cleared⟩

/-- Settles O46: the foreground agent's part appends at most one event, and the front end and the edge agent none. -/
theorem traceIsAppendedTo : Obligations.TraceIsAppendedTo := by
  intro s t h outsideReset
  cases step_move h with
  | stay => exact .inl rfl
  | edgeIdle => exact .inl rfl
  | edge => exact .inl rfl
  | foreground _ _ _ _ move => exact move.obs_cases
  | reset inp turns turn low => simp [outsideReset inp turns turn] at low
  | tick inp turns u _ _ move => simpa using move.obs_cases

/-- Settles O47: no move of a step, reset among them, writes a parameter. -/
theorem parametersAreFixed : Obligations.ParametersAreFixed := by
  intro s t h
  cases step_move h with
  | stay => rfl
  | edgeIdle => rfl
  | edge => rfl
  | foreground _ _ _ _ move => exact move.cfg_eq
  | reset => rfl
  | tick inp turns u _ _ move => simpa using move.cfg_eq

end Sys2Proof.Machine
end

section
/-! A clock tick of an unprimed front end does not read the old levels (R17): the foreground agent's part carries them
along unread, and the front end overwrites them. -/

namespace Sys2Proof.Machine

/-- The previous sampled levels replaced. -/
def State.setOldLevels (s : State) (x y : Bool) : State := { s with aQ := x, bQ := y }

/-- An outcome with `f` applied to its next state. -/
def mapNext (f : State → State) : Host.Outcome State Fault Refusal → Host.Outcome State Fault Refusal
  | .next s => .next (f s)
  | .fault r => .fault r
  | .refused r => .refused r

section setOldLevels
variable (x y : Bool) (s : State)

@[simp] theorem State.setOldLevels_lcdCw : (s.setOldLevels x y).lcdCw = s.lcdCw := rfl
@[simp] theorem State.setOldLevels_lcdPc : (s.setOldLevels x y).lcdPc = s.lcdPc := rfl
@[simp] theorem State.setOldLevels_currentMicro : (s.setOldLevels x y).currentMicro = s.currentMicro := rfl
@[simp] theorem State.setOldLevels_waited : (s.setOldLevels x y).waited = s.waited := rfl
@[simp] theorem State.setOldLevels_cfg : (s.setOldLevels x y).cfg = s.cfg := rfl

theorem perform_setOldLevels (m : MicroOp) :
    (s.setOldLevels x y).perform m = (s.perform m).setOldLevels x y := by
  cases m <;> rfl

theorem acceptInit_setOldLevels (cw : CmdWord) :
    acceptInit cw (s.setOldLevels x y) = mapNext (·.setOldLevels x y) (acceptInit cw s) := by
  unfold acceptInit
  rw [apply_ite (mapNext _), apply_ite (mapNext _)]
  rfl

theorem acceptWhenReady_setOldLevels (cw : CmdWord) :
    acceptWhenReady cw (s.setOldLevels x y) = mapNext (·.setOldLevels x y) (acceptWhenReady cw s) := by
  unfold acceptWhenReady
  rw [apply_ite (mapNext _), apply_ite (mapNext _)]
  rfl

theorem execRdpos_setOldLevels :
    execRdpos (s.setOldLevels x y) = mapNext (·.setOldLevels x y) (execRdpos s) := by
  unfold execRdpos
  rw [apply_ite (mapNext _)]
  rfl

theorem exec_setOldLevels (i : Instr) :
    exec i (s.setOldLevels x y) = mapNext (·.setOldLevels x y) (exec i s) := by
  cases i with
  | edgeA p a b => rfl
  | edgeB p a b => rfl
  | rdpos => exact execRdpos_setOldLevels x y s
  | lcdInit => exact acceptInit_setOldLevels x y s _
  | lcdCmd byte => exact acceptWhenReady_setOldLevels x y s _
  | lcdData byte => exact acceptWhenReady_setOldLevels x y s _
  | lcdCursor col row => exact acceptWhenReady_setOldLevels x y s _

theorem acceptWord_setOldLevels (cw : CmdWord) :
    acceptWord cw (s.setOldLevels x y) = mapNext (·.setOldLevels x y) (acceptWord cw s) := by
  unfold acceptWord
  split
  · exact exec_setOldLevels x y s _
  · rfl

theorem microStep_setOldLevels (cw : CmdWord) :
    microStep cw (s.setOldLevels x y) = mapNext (·.setOldLevels x y) (microStep cw s) := by
  simp only [microStep, State.setOldLevels_cfg, State.setOldLevels_lcdPc, perform_setOldLevels]
  cases (uprog s.cfg cw)[s.lcdPc]? with
  | none => rfl
  | some m => dsimp only; split_ifs <;> rfl

theorem tickForeground_setOldLevels (inp : TickIn) :
    tickForeground inp (s.setOldLevels x y) = mapNext (·.setOldLevels x y) (tickForeground inp s) := by
  simp only [tickForeground, State.setOldLevels_lcdCw, State.setOldLevels_currentMicro,
    State.setOldLevels_waited, State.setOldLevels_cfg, microStep_setOldLevels, acceptWord_setOldLevels]
  cases s.lcdCw with
  | none => dsimp only; split_ifs <;> rfl
  | some cw =>
    cases s.currentMicro with
    | none => rfl
    | some m =>
      cases m with
      | wait d => dsimp only; split_ifs <;> rfl
      | setRs v => rfl
      | setD n => rfl
      | setE v => rfl

theorem tick_setOldLevels_of_unprimed (inp : TickIn) (h : s.primed = false) :
    tick inp (s.setOldLevels x y) = tick inp s := by
  unfold tick
  rw [tickForeground_setOldLevels]
  split_ifs with high
  · cases hf : tickForeground inp s with
    | next u =>
      have unprimed : u.primed = false := (tickForeground_move hf).primed_eq.trans h
      simp only [mapNext, frontEnd_of_unprimed unprimed, frontEnd_of_unprimed (s := u.setOldLevels x y) unprimed]
      rfl
    | fault r => rfl
    | refused r => rfl
  · rfl

end setOldLevels

/-- Settles O52: the step is the tick, whose old levels an unprimed front end overwrites unread. -/
theorem unprimedTickIgnoresOldLevels : Obligations.UnprimedTickIgnoresOldLevels := by
  intro s x y inp turns hs unprimed
  simp only [step, hs, takeTurn]
  exact tick_setOldLevels_of_unprimed x y (s.setSched turns) inp unprimed

/-- Settles O38: the values are those of `State.reset`, the first tick reads no old level, and each agent finds nothing
to do. -/
theorem resetValues : Obligations.ResetValues := by
  refine ⟨rfl, rfl, rfl, rfl, rfl, rfl, rfl, rfl, rfl, fun x y inp turns => ?_, fun turns noTick => ?_⟩
  · exact unprimedTickIgnoresOldLevels { State.reset with sched := .tick inp :: turns } x y inp turns rfl rfl
  · match turns with
    | [] => rfl
    | .edge :: rest => rfl
    | .foreground :: rest => rfl
    | .tick inp :: rest => simp [eventLevel] at noTick

end Sys2Proof.Machine
end

section
/-! The command port of a busy block, and the operation a step runs. -/

namespace Sys2Proof.Machine

/-- R21: an operation of the command port has no effect on a busy block. -/
theorem exec_of_busy {i : Instr} {s : State} (busy : s.lcdBusy = true) (command : i.isEdge = false) :
    exec i s = .next s := by
  cases i with
  | edgeA p a b => cases command
  | edgeB p a b => cases command
  | rdpos => exact if_pos busy
  | lcdInit => exact if_pos busy
  | lcdCmd byte => exact if_pos busy
  | lcdData byte => exact if_pos busy
  | lcdCursor col row => exact if_pos busy

theorem microStep_cmds {cw : CmdWord} {s t : State} (h : microStep cw s = .next t) : t.cmds = s.cmds := by
  obtain ⟨m, -, ⟨-, rfl⟩ | ⟨-, rfl⟩⟩ := microStep_next h <;> simp

theorem step_of_edge {s : State} {turns : List Turn} (turn : s.sched = .edge :: turns) :
    step s = edgeTurn (s.setSched turns) := by
  simp only [step, turn, takeTurn]

theorem step_of_foreground {s : State} {turns : List Turn} (turn : s.sched = .foreground :: turns) :
    step s = foregroundTurn (s.setSched turns) := by
  simp only [step, turn, takeTurn]

theorem foregroundTurn_of_word {s : State} {cw : CmdWord} {rest : List CmdWord} (idle : s.lcdCw = none)
    (words : s.cmds = cw :: rest) : foregroundTurn s = acceptWord cw (s.setCmds rest) := by
  simp only [foregroundTurn, idle, words]

theorem edgeTurn_of_record {s : State} {r : EdgeRec} {rest : List EdgeRec} (records : s.edges = r :: rest) :
    edgeTurn s = exec (decodeE r) (s.setEdges rest) := by
  simp only [edgeTurn, records]

theorem acceptWord_of_op {cw : CmdWord} {i : Instr} (word : decodeC cw = .op i) (s : State) :
    acceptWord cw s = exec i s := by
  simp only [acceptWord, word]

/-- Settles O22: on a busy block each operation of the command port finds the sequencer taken, and the foreground
agent's turn is a micro step. -/
theorem busyBlockAcceptsNothing : Obligations.BusyBlockAcceptsNothing := by
  refine ⟨fun i s busy command => exec_of_busy busy command, fun s t turns busy turn h => ?_⟩
  rw [step_of_foreground turn] at h
  obtain ⟨cw, -, h⟩ | ⟨idle, -, -⟩ | ⟨_, _, idle, -, -⟩ := foregroundTurn_next h
  · exact (microStep_cmds h).trans (State.setSched_cmds s turns)
  · simp [State.lcdBusy_of_idle (s := s) idle] at busy
  · simp [State.lcdBusy_of_idle (s := s) idle] at busy

/-- Settles O48: the scheduled agent consumes the turn and its next word, and performs what the word decodes to. -/
theorem stepRunsTheDecodedOperation : Obligations.StepRunsTheDecodedOperation := by
  constructor
  · intro s turns r rest i turn records word
    cases word
    rw [step_of_edge turn, edgeTurn_of_record (s := s.setSched turns) records]
    rfl
  · intro s turns cw rest i turn idle words word
    rw [step_of_foreground turn, foregroundTurn_of_word (s := s.setSched turns) idle words, acceptWord_of_op word]
    rfl

end Sys2Proof.Machine
end

section
/-! Turns of the event level: what the foreground agent's part leaves to the edge agent, and the position and the reads
along an interleaving of the two agents (R46, R49). -/

namespace Sys2Proof.Machine

@[simp] theorem eventLevel_edge (turns : List Turn) : eventLevel (.edge :: turns) = eventLevel turns := rfl
@[simp] theorem eventLevel_foreground (turns : List Turn) :
    eventLevel (.foreground :: turns) = eventLevel turns := rfl
@[simp] theorem eventLevel_tick (inp : TickIn) (turns : List Turn) : eventLevel (.tick inp :: turns) = false := rfl

theorem eventOf_ne_posRead (m : MicroOp) (v : Int) : eventOf m ≠ .posRead v := by cases m <;> nofun

theorem netDelta_append (xs ys : List EdgeRec) : netDelta (xs ++ ys) = netDelta xs + netDelta ys := by
  simp [netDelta]

namespace ForegroundMove
variable {s t : State}

theorem edges_eq (h : ForegroundMove s t) : t.edges = s.edges := by cases h <;> simp

theorem sched_eq (h : ForegroundMove s t) : t.sched = s.sched := by cases h <;> simp

/-- R44: a read the foreground agent appends carries the position of that moment. -/
theorem reads_position (h : ForegroundMove s t) :
    ∃ more, t.obs = s.obs ++ more ∧ ∀ v, .posRead v ∈ more → v = s.position := by
  cases h with
  | pass => exact ⟨[], by simp⟩
  | spend => exact ⟨[], by simp⟩
  | read => exact ⟨[.posRead s.position], by simp⟩
  | accept => exact ⟨[], by simp⟩
  | advance cw m => exact ⟨[eventOf m], by simp [(eventOf_ne_posRead m _).symm]⟩
  | finish cw m => exact ⟨[eventOf m], by simp [(eventOf_ne_posRead m _).symm]⟩

end ForegroundMove

/-- A step of the event level leaves a schedule of the event level. -/
theorem StepMove.keeps_eventLevel {s t : State} (h : StepMove s t) (noTick : eventLevel s.sched = true) :
    eventLevel t.sched = true := by
  cases h with
  | stay => exact noTick
  | edgeIdle turns turn => simpa [turn] using noTick
  | edge turns r rest turn => simpa [turn] using noTick
  | foreground turns cws t turn move => simpa [turn, move.sched_eq] using noTick
  | reset inp turns turn => simp [turn] at noTick
  | tick inp turns u turn => simp [turn] at noTick

/-- The position once the first `k` of the records that wait in `s` are consumed, in closed form (R78 item 3). -/
def State.positionAfter (s : State) (k : Nat) : Int := movedBy s.position (netDelta (s.edges.take k))

theorem positionAfter_zero {s : State} (h : s.positionInRange) : s.positionAfter 0 = s.position :=
  movedBy_zero h.1 h.2

/-- The next record takes one closed form to the next. -/
theorem positionAfter_succ {s : State} {k : Nat} {r : EdgeRec} {rest : List EdgeRec}
    (records : s.edges.drop k = r :: rest) : s.positionAfter (k + 1) = wrap (s.positionAfter k + edgeDelta r) := by
  have kth : s.edges[k]? = some r := by rw [← List.head?_drop, records, List.head?_cons]
  have one : netDelta [r] = edgeDelta r := by simp [netDelta]
  obtain ⟨low, high⟩ := movedBy_inRange s.position (netDelta (s.edges.take k))
  calc s.positionAfter (k + 1)
    _ = movedBy s.position (netDelta (s.edges.take k) + edgeDelta r) := by
      simp [State.positionAfter, List.take_add_one, kth, netDelta_append, one]
    _ = movedBy (s.positionAfter k) (edgeDelta r) := (movedBy_movedBy ..).symm
    _ = wrap (s.positionAfter k + edgeDelta r) := (wrap_add_dir low high ..).symm

/-- A run of the agents from `s` has come to `t` with `k` records consumed and the events `new` appended: the position
is the closed form of those records, and each read is the closed form of the first so many of them. -/
structure ReadsPriorPositions (s : State) (k : Nat) (new : List Event) (t : State) : Prop where
  within : k ≤ s.edges.length
  edges : t.edges = s.edges.drop k
  position : t.position = s.positionAfter k
  obs : t.obs = s.obs ++ new
  reads : ∀ v, .posRead v ∈ new → ∃ j, j ≤ k ∧ v = s.positionAfter j

namespace ReadsPriorPositions
variable {s t u : State} {k : Nat} {new : List Event}

theorem start (h : s.positionInRange) : ReadsPriorPositions s 0 [] s :=
  ⟨Nat.zero_le _, rfl, (positionAfter_zero h).symm, (List.append_nil _).symm, nofun⟩

/-- The edge agent consumes one more record. -/
theorem edge (h : ReadsPriorPositions s k new t) {r : EdgeRec} {rest : List EdgeRec} (records : t.edges = r :: rest)
    (edges : u.edges = rest) (position : u.position = wrap (t.position + edgeDelta r)) (obs : u.obs = t.obs) :
    ReadsPriorPositions s (k + 1) new u := by
  have waiting : s.edges.drop k = r :: rest := h.edges.symm.trans records
  have more : k < s.edges.length := Nat.lt_of_not_le fun all => by simp [List.drop_eq_nil_of_le all] at waiting
  refine ⟨more, ?_, ?_, obs.trans h.obs, fun v read => ?_⟩
  · rw [edges, ← List.drop_drop, waiting, List.drop_one, List.tail_cons]
  · rw [position, h.position, positionAfter_succ waiting]
  · obtain ⟨j, prior, value⟩ := h.reads v read
    exact ⟨j, prior.trans k.le_succ, value⟩

/-- Events are appended whose reads, if any, carry the position. -/
theorem append (h : ReadsPriorPositions s k new t) {more : List Event} (edges : u.edges = t.edges)
    (position : u.position = t.position) (obs : u.obs = t.obs ++ more)
    (reads : ∀ v, .posRead v ∈ more → v = t.position) : ReadsPriorPositions s k (new ++ more) u := by
  refine ⟨h.within, edges.trans h.edges, position.trans h.position, by rw [obs, h.obs, List.append_assoc],
    fun v read => ?_⟩
  obtain earlier | now := List.mem_append.mp read
  · exact h.reads v earlier
  · exact ⟨k, le_rfl, (reads v now).trans h.position⟩

end ReadsPriorPositions

/-- Each step of the two agents consumes at most the next record and appends at most a read of the position. -/
theorem StepMove.keeps_readsPriorPositions {s t u : State} (h : StepMove t u) (noTick : eventLevel t.sched = true)
    (prior : ∃ k new, ReadsPriorPositions s k new t) : ∃ k new, ReadsPriorPositions s k new u := by
  obtain ⟨k, new, prior⟩ := prior
  cases h with
  | stay => exact ⟨k, new, prior⟩
  | edgeIdle => exact ⟨k, new, prior.within, prior.edges, prior.position, prior.obs, prior.reads⟩
  | edge turns r rest turn records => exact ⟨k + 1, new, prior.edge records rfl rfl rfl⟩
  | foreground turns cws u turn move =>
    obtain ⟨more, obs, reads⟩ := move.reads_position
    exact ⟨k, new ++ more, prior.append move.edges_eq move.position_eq obs reads⟩
  | reset inp turns turn => simp [turn] at noTick
  | tick inp turns u turn => simp [turn] at noTick

/-- Settles O16: every step of an interleaving keeps the closed form of the position and of the reads. -/
theorem readsSeeConsistentPriorPositions : Obligations.ReadsSeeConsistentPriorPositions := by
  intro n s t inRange noTick run
  obtain ⟨-, k, new, within, edges, position, obs, reads⟩ := runSteps_induct
    (Q := fun u => eventLevel u.sched = true ∧ ∃ k new, ReadsPriorPositions s k new u)
    (fun u v ⟨noTick, prior⟩ h =>
      ⟨(step_move h).keeps_eventLevel noTick, (step_move h).keeps_readsPriorPositions noTick prior⟩)
    ⟨noTick, 0, [], .start inRange⟩ run
  exact ⟨k, new, within, edges, position, obs, reads⟩

end Sys2Proof.Machine
end

section
/-! Unit L apart from unit Q (R49): a turn of the foreground agent is a function of unit L's view alone, and so is a run
of the two agents, whatever the edge agent does between those turns. -/

namespace Sys2Proof.Machine

/-- The pins as a micro-operation leaves them (R96). -/
def LcdView.perform (v : LcdView) : MicroOp → LcdView
  | .setRs level => { v with rs := level }
  | .setD n => { v with d := n }
  | .setE level => { v with e := level }
  | .wait _ => v

/-- Unit L once an idle block has accepted an operation (R94); `RDPOS` is none of its own (R79). -/
def LcdView.accept (v : LcdView) (i : Instr) : LcdView :=
  if i.isLcdOp then { v with cw := commandWord i, pc := 0, waited := 0 } else v

/-- Unit L after a turn of the foreground agent that is neither refused nor a fault, and the pin events of the turn. -/
def LcdView.turn (v : LcdView) : LcdView × List Event :=
  match v.cw with
  | some cw =>
    match (uprog v.cfg cw)[v.pc]? with
    | none => (v, [])
    | some m =>
      if v.pc + 1 = (uprog v.cfg cw).length then
        ({ v.perform m with ready := v.ready || isInitWord cw, cw := none, pc := 0, waited := 0 }, [eventOf m])
      else ({ v.perform m with pc := v.pc + 1, waited := 0 }, [eventOf m])
  | none =>
    match v.cmds with
    | [] => (v, [])
    | cw :: rest =>
      match decodeC cw with
      | .reserved _ => (v, [])
      | .op i => ({ v with cmds := rest }.accept i, [])

/-- Unit L after `n` turns of the foreground agent, and their pin events. -/
def LcdView.turns : Nat → LcdView → LcdView × List Event
  | 0, v => (v, [])
  | n + 1, v => ((turns n v.turn.1).1, v.turn.2 ++ (turns n v.turn.1).2)

theorem LcdView.turns_zero (v : LcdView) : v.turns 0 = (v, []) := rfl
theorem LcdView.turns_succ (n : Nat) (v : LcdView) :
    v.turns (n + 1) = ((v.turn.1.turns n).1, v.turn.2 ++ (v.turn.1.turns n).2) := rfl

theorem perform_lcdView (s : State) (m : MicroOp) : (s.perform m).lcdView = s.lcdView.perform m := by cases m <;> rfl

theorem perform_nextMicro_lcdView (s : State) (m : MicroOp) :
    (s.perform m).nextMicro.lcdView = { s.lcdView.perform m with pc := s.lcdPc + 1, waited := 0 } := by
  cases m <;> rfl

theorem perform_finishOp_lcdView (s : State) (m : MicroOp) (wasInit : Bool) :
    ((s.perform m).finishOp wasInit).lcdView =
      { s.lcdView.perform m with ready := s.lcdReady || wasInit, cw := none, pc := 0, waited := 0 } := by
  cases m <;> rfl

theorem pinEvents_eventOf (m : MicroOp) : pinEvents [eventOf m] = [eventOf m] := by cases m <;> rfl

/-- From `s` to `t` unit L has come to the view `c.1`, and the pin events `c.2` have been appended. -/
structure LcdChange (s t : State) (c : LcdView × List Event) : Prop where
  view : t.lcdView = c.1
  trace : ∃ new, t.obs = s.obs ++ new ∧ pinEvents new = c.2

namespace LcdChange
variable {s t u : State}

/-- Nothing is appended. -/
theorem silent {v : LcdView} (view : t.lcdView = v) (obs : t.obs = s.obs) : LcdChange s t (v, []) :=
  ⟨view, [], by simp [obs], rfl⟩

theorem trans {c d : LcdView × List Event} (first : LcdChange s t c) (second : LcdChange t u d) :
    LcdChange s u (d.1, c.2 ++ d.2) := by
  obtain ⟨-, new, obs, pins⟩ := first
  obtain ⟨view, new', obs', pins'⟩ := second
  exact ⟨view, new ++ new', by rw [obs', obs, List.append_assoc], by rw [pinEvents_append, pins, pins']⟩

end LcdChange

theorem microStep_lcdChange {cw : CmdWord} {s t : State} (busy : s.lcdCw = some cw) (h : microStep cw s = .next t) :
    LcdChange s t s.lcdView.turn := by
  obtain ⟨m, current, ⟨last, rfl⟩ | ⟨more, rfl⟩⟩ := microStep_next h
  · have turn : s.lcdView.turn = (((s.perform m).finishOp (isInitWord cw)).lcdView, [eventOf m]) := by
      rw [perform_finishOp_lcdView]
      simp [LcdView.turn, State.lcdView, busy, current, last]
    rw [turn]
    exact ⟨rfl, [eventOf m], by simp, pinEvents_eventOf m⟩
  · have turn : s.lcdView.turn = ((s.perform m).nextMicro.lcdView, [eventOf m]) := by
      rw [perform_nextMicro_lcdView]
      simp [LcdView.turn, State.lcdView, busy, current, more]
    rw [turn]
    exact ⟨rfl, [eventOf m], by simp, pinEvents_eventOf m⟩

/-- The acceptance of a word shows on unit L only if it starts an operation, and a read is no pin event. -/
theorem acceptWord_lcdChange {cw : CmdWord} {s t : State} (idle : s.lcdCw = none) (h : acceptWord cw s = .next t) :
    ∃ i, decodeC cw = .op i ∧ LcdChange s t (s.lcdView.accept i, []) := by
  obtain ⟨i, word, edge, -⟩ | ⟨word, rfl⟩ | ⟨word, -, rfl⟩ | ⟨i, w, word, lcd, -, enc, -, rfl⟩ :=
    acceptWord_next idle h
  · simp [isEdge_of_decodeC word] at edge
  · exact ⟨.rdpos, word, rfl, [.posRead s.position], rfl, rfl⟩
  · exact ⟨.lcdInit, word, .silent rfl rfl⟩
  · refine ⟨i, word, .silent ?_ rfl⟩
    simp [LcdView.accept, lcd, commandWord, enc, State.lcdView]

/-- R49: what a turn of the foreground agent does to unit L, and the pin events it appends, are functions of unit L. -/
theorem foregroundTurn_lcdChange {s t : State} (h : foregroundTurn s = .next t) : LcdChange s t s.lcdView.turn := by
  obtain ⟨cw, busy, h⟩ | ⟨idle, noWord, rfl⟩ | ⟨cw, rest, idle, words, h⟩ := foregroundTurn_next h
  · exact microStep_lcdChange busy h
  · have turn : t.lcdView.turn = (t.lcdView, []) := by simp [LcdView.turn, State.lcdView, idle, noWord]
    rw [turn]
    exact .silent rfl rfl
  · obtain ⟨i, word, change⟩ := acceptWord_lcdChange (s := s.setCmds rest) idle h
    have turn : s.lcdView.turn = ((s.setCmds rest).lcdView.accept i, []) := by
      simp [LcdView.turn, State.lcdView, idle, words, word]
    rw [turn]
    exact ⟨change.view, change.trace⟩

/-- A step of the edge agent leaves unit L and the trace as they are (R136). -/
theorem step_of_edge_lcdChange {s t : State} {turns : List Turn} (turn : s.sched = .edge :: turns)
    (h : step s = .next t) : t.sched = turns ∧ LcdChange s t (s.lcdView, []) := by
  rw [step_of_edge turn] at h
  obtain ⟨-, rfl⟩ | ⟨r, rest, -, h⟩ := edgeTurn_next h
  · exact ⟨rfl, .silent rfl rfl⟩
  · rw [exec_decodeE] at h
    cases h
    exact ⟨rfl, .silent rfl rfl⟩

theorem step_of_foreground_lcdChange {s t : State} {turns : List Turn} (turn : s.sched = .foreground :: turns)
    (h : step s = .next t) : t.sched = turns ∧ LcdChange s t s.lcdView.turn := by
  rw [step_of_foreground turn] at h
  obtain ⟨cws, move⟩ := foregroundTurn_move h
  obtain ⟨view, trace⟩ := foregroundTurn_lcdChange h
  exact ⟨move.sched_eq, view, trace⟩

/-- A run of the two agents to the end of the schedule takes unit L through as many of its own turns as the schedule
gives the foreground agent. -/
theorem run_lcdChange (turns : List Turn) {s t : State} (sched : s.sched = turns) (noTick : eventLevel turns = true)
    (run : runSteps turns.length s = .next t) : LcdChange s t (s.lcdView.turns (turns.count .foreground)) := by
  induction turns generalizing s with
  | nil =>
    cases run
    exact .silent rfl rfl
  | cons turn rest ih =>
    obtain ⟨u, first, others⟩ := runSteps_succ_next run
    cases turn with
    | edge =>
      obtain ⟨sched', change⟩ := step_of_edge_lcdChange sched first
      have whole := change.trans (ih sched' noTick others)
      rw [change.view] at whole
      simpa using whole
    | foreground =>
      obtain ⟨sched', change⟩ := step_of_foreground_lcdChange sched first
      have whole := change.trans (ih sched' noTick others)
      rw [change.view] at whole
      simpa [LcdView.turns_succ] using whole
    | tick inp => simp at noTick

/-- Settles O44: both runs take unit L through the same turns from the same view. -/
theorem unitLIgnoresUnitQ : Obligations.UnitLIgnoresUnitQ := by
  intro s s' t t' same noTick noTick' count run run'
  obtain ⟨view, new, obs, pins⟩ := run_lcdChange s.sched rfl noTick run
  obtain ⟨view', new', obs', pins'⟩ := run_lcdChange s'.sched rfl noTick' run'
  rw [same, count] at view' pins'
  exact ⟨view'.trans view.symm, new, new', obs, obs', pins'.trans pins.symm⟩

end Sys2Proof.Machine
end

section
/-! The decoders and the encoder against each other (R59, R63), and which command words are reserved (R61). -/

namespace Sys2Proof

/-! ### The round trips -/

/-- R55, R59: the bit `c` of a record selects the operation, and the other three are its operands. -/
theorem decodeE_edgeRecord (c : Bool) (p : Polarity) (a b : Bool) :
    decodeE (edgeRecord c p a b) = if c then .edgeB p a b else .edgeA p a b := by
  cases c <;> cases p <;> cases a <;> cases b <;> rfl

/-- R62, R63: each of the 16 edge records is the word of what it decodes to. -/
theorem encode_decodeE (r : EdgeRec) : encode (decodeE r) = .edge r := by
  revert r; decide

/-- Settles O1: a command word by the fields the encoder writes, an edge record by its bits. -/
theorem decodeOfEncodeIsTheOperation : Obligations.DecodeOfEncodeIsTheOperation := by
  intro i
  cases word : encode i with
  | cmd cw => exact decodeC_of_encode word
  | edge r =>
    cases i with
    | edgeA p a b => cases word; exact congrArg _ (decodeE_edgeRecord false p a b)
    | edgeB p a b => cases word; exact congrArg _ (decodeE_edgeRecord true p a b)
    | _ => cases word

theorem eq_of_fields {cw : CmdWord} {o z : BitVec 4} {p : Byte} (ho : opcodeField cw = o) (hz : zeroField cw = z)
    (hp : payloadField cw = p) : cw = o ++ z ++ p := by
  rw [← ho, ← hz, ← hp]
  exact commandWord_eq_fields cw

/-- R60: with bit 7 clear, the payload is the operands of `LCD_CURSOR` under a zero bit. -/
theorem payloadField_of_bit7 {cw : CmdWord} (bit7 : cw.getLsbD 7 = false) :
    payloadField cw = 0#1 ++ rowField cw ++ colField cw := by
  apply BitVec.eq_of_getLsbD_eq
  intro k hk
  simp only [payloadField, rowField, colField, BitVec.getLsbD_append, BitVec.getLsbD_extractLsb']
  obtain below | rfl | rfl : k < 6 ∨ k = 6 ∨ k = 7 := by omega
  · simp [below, hk]
  · simp
  · simpa using bit7

theorem wordLcdCursor_eq_fields (col : BitVec 6) (row : BitVec 1) :
    wordLcdCursor col row = 0x4#4 ++ 0x0#4 ++ (0#1 ++ row ++ col) := by
  revert col row; decide

/-- R59, R61: the opcodes that are not reserved are those of the five format C rows. -/
theorem reservedOpcode_iff (o : BitVec 4) : (o = 0x0#4 ∨ 0x6#4 ≤ o) ↔
    ¬ (o = 0x1#4 ∨ o = 0x2#4 ∨ o = 0x3#4 ∨ o = 0x4#4 ∨ o = 0x5#4) := by
  revert o; decide

/-- R59, R63: each arm of the decoder fixes every field of the word, so that no bit of it is dropped. -/
theorem encode_of_decodeC {cw : CmdWord} {i : Instr} (h : decodeC cw = .op i) : encode i = .cmd cw := by
  unfold decodeC at h
  split_ifs at h with opcode zero init payload cmd data cursor bit7 payload <;> cases h
  · exact congrArg _ (eq_of_fields init (not_not.mp zero) payload).symm
  · exact congrArg _ (eq_of_fields cmd (not_not.mp zero) rfl).symm
  · exact congrArg _ (eq_of_fields data (not_not.mp zero) rfl).symm
  · rw [encode, wordLcdCursor_eq_fields]
    exact congrArg _ (eq_of_fields cursor (not_not.mp zero) (payloadField_of_bit7 (by simpa using bit7))).symm
  · have rdpos : opcodeField cw = 0x5#4 := by
      simpa [reservedOpcode_iff, init, cmd, data, cursor] using opcode
    exact congrArg _ (eq_of_fields rdpos (not_not.mp zero) payload).symm

/-- Settles O2: on either port the word is the one its operation encodes to. -/
theorem encodeOfDecodeIsTheWord : Obligations.EncodeOfDecodeIsTheWord
  | .edge r, _, rfl => encode_decodeE r
  | .cmd _, _, h => encode_of_decodeC h

/-! ### Reserved command words -/

/-- R59: a row selects a word when each of its three fields does. -/
theorem selects_iff (mnemonic : String) (po mo pz mz : BitVec 4) (pp mp : Byte) (cw : CmdWord) :
    OpRow.selects ⟨mnemonic, po ++ pz ++ pp, mo ++ mz ++ mp⟩ cw = true ↔
      opcodeField cw &&& mo = po ∧ zeroField cw &&& mz = pz ∧ payloadField cw &&& mp = pp := by
  simp only [OpRow.selects, beq_iff_eq]
  rw [commandWord_eq_fields cw, opcodeField_fields, zeroField_fields, payloadField_fields, BitVec.and_append,
    BitVec.and_append]
  constructor
  · intro h
    obtain ⟨ho, hz, hp⟩ := fields_of_eq h
    rw [opcodeField_fields] at ho
    rw [zeroField_fields] at hz
    rw [payloadField_fields] at hp
    exact ⟨ho, hz, hp⟩
  · rintro ⟨rfl, rfl, rfl⟩
    rfl

/-- The opcode map of R59 with its patterns and masks cut into fields. -/
theorem commandRows_eq_fields : commandRows =
    [⟨"RDPOS", 0x5#4 ++ 0x0#4 ++ 0x00#8, 0xF#4 ++ 0xF#4 ++ 0xFF#8⟩,
     ⟨"LCD_INIT", 0x1#4 ++ 0x0#4 ++ 0x00#8, 0xF#4 ++ 0xF#4 ++ 0xFF#8⟩,
     ⟨"LCD_CMD", 0x2#4 ++ 0x0#4 ++ 0x00#8, 0xF#4 ++ 0xF#4 ++ 0x00#8⟩,
     ⟨"LCD_DATA", 0x3#4 ++ 0x0#4 ++ 0x00#8, 0xF#4 ++ 0xF#4 ++ 0x00#8⟩,
     ⟨"LCD_CURSOR", 0x4#4 ++ 0x0#4 ++ 0x00#8, 0xF#4 ++ 0xF#4 ++ 0x80#8⟩] := rfl

theorem payloadField_and_bit7 (cw : CmdWord) : payloadField cw &&& 0x80#8 = 0x00#8 ↔ cw.getLsbD 7 = false := by
  have top : ∀ p : Byte, p &&& 0x80#8 = 0x00#8 ↔ p.getLsbD 7 = false := by decide
  rw [top, payloadField, BitVec.getLsbD_extractLsb']
  rfl

/-- R59: the legal command words, by their fields. -/
theorem commandWordLegal_iff (cw : CmdWord) : commandWordLegal cw = true ↔ zeroField cw = 0x0#4 ∧
    (((opcodeField cw = 0x1#4 ∨ opcodeField cw = 0x5#4) ∧ payloadField cw = 0x00#8) ∨
      opcodeField cw = 0x2#4 ∨ opcodeField cw = 0x3#4 ∨ (opcodeField cw = 0x4#4 ∧ cw.getLsbD 7 = false)) := by
  have whole (o : BitVec 4) : o &&& 0xF#4 = o := BitVec.and_allOnes
  have wholeByte (p : Byte) : p &&& 0xFF#8 = p := BitVec.and_allOnes
  simp only [commandWordLegal, commandRows_eq_fields, List.any_cons, List.any_nil, Bool.or_eq_true, selects_iff,
    whole, wholeByte, payloadField_and_bit7, BitVec.and_zero, Bool.false_eq_true]
  tauto

/-- The conditions of R61 under which a command word is reserved. -/
def ReservedFields (cw : CmdWord) : Prop :=
  opcodeField cw = 0x0#4 ∨ 0x6#4 ≤ opcodeField cw ∨ zeroField cw ≠ 0x0#4 ∨
    ((opcodeField cw = 0x1#4 ∨ opcodeField cw = 0x5#4) ∧ payloadField cw ≠ 0x00#8) ∨
    (opcodeField cw = 0x4#4 ∧ cw.getLsbD 7 = true)

/-- R61, R63: the decoder rejects a word under exactly these conditions. -/
theorem decodeC_reserved_iff (cw : CmdWord) : (∃ why, decodeC cw = .reserved why) ↔ ReservedFields cw := by
  rw [decodeC, ReservedFields, ← or_assoc]
  by_cases legal : opcodeField cw = 0x1#4 ∨ opcodeField cw = 0x2#4 ∨ opcodeField cw = 0x3#4 ∨
    opcodeField cw = 0x4#4 ∨ opcodeField cw = 0x5#4
  · by_cases zero : zeroField cw = 0x0#4
    · obtain o | o | o | o | o := legal
      · by_cases payload : payloadField cw = 0x00#8 <;> simp [o, zero, payload]
      · simp [o, zero]
      · simp [o, zero]
      · cases bit7 : cw.getLsbD 7 <;> simp [o, zero]
      · by_cases payload : payloadField cw = 0x00#8 <;> simp [o, zero, payload]
    · split_ifs <;> simp [zero]
  · simp [(reservedOpcode_iff _).mpr legal]

/-- R59, R61: a word matches no row of the opcode map under exactly these conditions. -/
theorem commandWordLegal_eq_false_iff (cw : CmdWord) : commandWordLegal cw = false ↔ ReservedFields cw := by
  rw [← Bool.not_eq_true, commandWordLegal_iff, ReservedFields]
  by_cases legal : opcodeField cw = 0x1#4 ∨ opcodeField cw = 0x2#4 ∨ opcodeField cw = 0x3#4 ∨
    opcodeField cw = 0x4#4 ∨ opcodeField cw = 0x5#4
  · obtain o | o | o | o | o := legal <;> simp [o, imp_iff_not_or]
  · refine iff_of_true ?_ (or_assoc.mp (.inl ((reservedOpcode_iff _).mpr legal)))
    simp only [not_or] at legal
    simp [legal]

end Sys2Proof

namespace Sys2Proof.Machine

/-- R61: the acceptance of a reserved word is refused. -/
theorem acceptWord_of_reserved {cw : CmdWord} {why : Reserved} (word : decodeC cw = .reserved why) (s : State) :
    acceptWord cw s = .refused .reservedWord := by
  simp only [acceptWord, word]

/-- Settles O3: both readings of reserved are R61's conditions, and the step that would accept the word is refused. -/
theorem reservedWordsAreRefused : Obligations.ReservedWordsAreRefused := by
  intro cw
  refine ⟨(decodeC_reserved_iff cw).trans (commandWordLegal_eq_false_iff cw).symm, decodeC_reserved_iff cw, ?_⟩
  rintro ⟨why, word⟩ s turns rest turn idle words
  rw [step_of_foreground turn, foregroundTurn_of_word (s := s.setSched turns) idle words]
  exact acceptWord_of_reserved word _

/-- Settles O4, by evaluating the decoders on the seven words. -/
theorem writtenOutWordsDecode : Obligations.WrittenOutWordsDecode := by
  unfold Obligations.WrittenOutWordsDecode
  decide

theorem bitOfPolarity_polarityOfBit (v : Bool) : bitOfPolarity (polarityOfBit v) = v := by cases v <;> rfl

/-- R62: a record is well-formed when the level of the channel that fired is the polarity bit. -/
theorem wellFormed_decodeE (r : EdgeRec) : (decodeE r).wellFormed =
    if r.getLsbD 3 then r.getLsbD 0 == r.getLsbD 2 else r.getLsbD 1 == r.getLsbD 2 := by
  unfold decodeE
  split <;> simp only [Instr.wellFormed, bitOfPolarity_polarityOfBit]

/-- Settles O5: what a record does is `exec_decodeE`, and the eight well-formed ones are found among the 16. -/
theorem everyEdgeRecordRuns : Obligations.EveryEdgeRecordRuns := by
  refine ⟨fun r s => ⟨decodeE r, rfl, exec_decodeE r s⟩, fun r => ?_, by decide⟩
  rw [wellFormed_decodeE]
  cases r.getLsbD 3 <;> simp

end Sys2Proof.Machine
end

section
/-! The run of LCD operations (R94): the micro-operations left of one, one from its acceptance to its completion, and
several one after the other, as a pseudo-operation issues them (R109). -/

namespace Sys2Proof.Machine

/-- A list of micro-operations performed in order (R94, R96). -/
def State.performAll (s : State) (ms : List MicroOp) : State := ms.foldl State.perform s

section performAll
variable (s : State) (ms : List MicroOp)

theorem performAll_nil : s.performAll [] = s := rfl

theorem performAll_cons (m : MicroOp) : s.performAll (m :: ms) = (s.perform m).performAll ms := rfl

/-- Micro-operations append their events and write pins, and nothing else (R96). -/
theorem performAll_eq : s.performAll ms = { s with
    obs := s.obs ++ ms.map eventOf
    lcdRs := (s.performAll ms).lcdRs, lcdE := (s.performAll ms).lcdE, lcdD := (s.performAll ms).lcdD } := by
  induction ms generalizing s with
  | nil => simp [performAll_nil]
  | cons m ms ih =>
    rw [performAll_cons, ih]
    cases m <;> simp [State.perform, State.driveRs, State.driveD, State.driveE, State.emit, eventOf]

@[simp] theorem performAll_obs : (s.performAll ms).obs = s.obs ++ ms.map eventOf := by rw [performAll_eq]
@[simp] theorem performAll_position : (s.performAll ms).position = s.position := by rw [performAll_eq]
@[simp] theorem performAll_edges : (s.performAll ms).edges = s.edges := by rw [performAll_eq]
@[simp] theorem performAll_lcdReady : (s.performAll ms).lcdReady = s.lcdReady := by rw [performAll_eq]
@[simp] theorem performAll_cfg : (s.performAll ms).cfg = s.cfg := by rw [performAll_eq]

theorem performAll_setSched (turns : List Turn) :
    (s.setSched turns).performAll ms = (s.performAll ms).setSched turns :=
  List.foldl_hom (fun s : State => s.setSched turns) fun _ m => by cases m <;> rfl

theorem performAll_nextMicro : s.nextMicro.performAll ms = (s.performAll ms).nextMicro :=
  List.foldl_hom State.nextMicro fun _ m => by cases m <;> rfl

theorem performAll_setCmds (cws : List CmdWord) :
    (s.setCmds cws).performAll ms = (s.performAll ms).setCmds cws :=
  List.foldl_hom (fun s : State => s.setCmds cws) fun _ m => by cases m <;> rfl

theorem performAll_beginOp (cw : CmdWord) : (s.beginOp cw).performAll ms = (s.performAll ms).beginOp cw :=
  List.foldl_hom (fun s : State => s.beginOp cw) fun _ m => by cases m <;> rfl

end performAll

/-! ### One operation -/

theorem foregroundTurns_succ_append (n : Nat) (turns : List Turn) :
    foregroundTurns (n + 1) ++ turns = .foreground :: (foregroundTurns n ++ turns) := rfl

theorem foregroundTurns_add (m n : Nat) : foregroundTurns (m + n) = foregroundTurns m ++ foregroundTurns n :=
  List.replicate_add ..

theorem foregroundTurn_of_busy {s : State} {cw : CmdWord} (busy : s.lcdCw = some cw) :
    foregroundTurn s = microStep cw s := by
  simp only [foregroundTurn, busy]

/-- The next micro-operation of a program of which `m` and then `ms` are left (R94). -/
theorem microStep_of_left {s : State} {cw : CmdWord} {m : MicroOp} {ms : List MicroOp}
    (left : (uprog s.cfg cw).drop s.lcdPc = m :: ms) : microStep cw s =
      .next (if ms = [] then (s.perform m).finishOp (isInitWord cw) else (s.perform m).nextMicro) := by
  have current : (uprog s.cfg cw)[s.lcdPc]? = some m := by rw [← List.head?_drop, left, List.head?_cons]
  have rest : (uprog s.cfg cw).length - s.lcdPc = ms.length + 1 := by
    rw [← List.length_drop, left, List.length_cons]
  have last : s.lcdPc + 1 = (uprog s.cfg cw).length ↔ ms = [] := by
    rw [← List.length_eq_zero_iff]
    omega
  rw [microStep, current, apply_ite Host.Outcome.next]
  exact if_congr last rfl rfl

/-- The turn of the foreground agent that performs the next micro-operation (R29, R94). -/
theorem step_of_left {s : State} {cw : CmdWord} {m : MicroOp} {ms : List MicroOp} {turns : List Turn}
    (busy : s.lcdCw = some cw) (left : (uprog s.cfg cw).drop s.lcdPc = m :: ms)
    (turn : s.sched = .foreground :: turns) : step s =
      .next ((if ms = [] then (s.perform m).finishOp (isInitWord cw) else (s.perform m).nextMicro).setSched turns) := by
  rw [step_of_foreground turn, foregroundTurn_of_busy (s := s.setSched turns) busy,
    microStep_of_left (s := s.setSched turns) left]
  cases m <;> split <;> rfl

/-- The micro-operations that are left are performed, one a turn, and the last one completes the operation (R94). -/
theorem runSteps_of_left {ms : List MicroOp} (notDone : ms ≠ []) {s : State} {cw : CmdWord} {turns : List Turn}
    (busy : s.lcdCw = some cw) (left : (uprog s.cfg cw).drop s.lcdPc = ms)
    (sched : s.sched = foregroundTurns ms.length ++ turns) :
    runSteps ms.length s = .next (((s.performAll ms).finishOp (isInitWord cw)).setSched turns) := by
  induction ms generalizing s with
  | nil => exact absurd rfl notDone
  | cons m ms ih =>
    rw [List.length_cons, foregroundTurns_succ_append] at sched
    rw [List.length_cons, runSteps_succ_of_next (step_of_left busy left sched)]
    split
    · next done => subst done; rfl
    · next more =>
      have left' : (uprog s.cfg cw).drop (s.lcdPc + 1) = ms := by rw [← List.tail_drop, left, List.tail_cons]
      rw [ih more (by simpa using busy) (by simpa using left') rfl, performAll_setSched, performAll_nextMicro]
      rfl

/-- An idle block accepts `LCD_INIT` before it is ready, and any other LCD operation after (R94). -/
theorem exec_of_idle {i : Instr} {cw : CmdWord} {s : State} (word : encode i = .cmd cw) (lcd : i.isLcdOp = true)
    (idle : s.lcdCw = none) (ready : s.lcdReady = !(i == .lcdInit)) : exec i s = .next (s.beginOp cw) := by
  have notBusy := State.lcdBusy_of_idle idle
  cases i with
  | edgeA p a b => cases lcd
  | edgeB p a b => cases lcd
  | rdpos => cases lcd
  | lcdInit => cases word; simp [exec, execLcdInit, acceptInit, notBusy, ready]
  | lcdCmd byte => cases word; simp [exec, execLcdCmd, acceptWhenReady, notBusy, ready]
  | lcdData byte => cases word; simp [exec, execLcdData, acceptWhenReady, notBusy, ready]
  | lcdCursor col row => cases word; simp [exec, execLcdCursor, acceptWhenReady, notBusy, ready]

theorem isInitWord_of_encode {i : Instr} {cw : CmdWord} (word : encode i = .cmd cw) :
    isInitWord cw = (i == .lcdInit) := by
  rw [Bool.eq_iff_iff, isInitWord_iff, decodeC_of_encode word, Decoded.op.injEq, beq_iff_eq]

/-- The turn that accepts an LCD operation (R94). -/
theorem step_of_lcdOp {i : Instr} {cw : CmdWord} {rest : List CmdWord} {turns : List Turn} {s : State}
    (word : encode i = .cmd cw) (lcd : i.isLcdOp = true) (idle : s.lcdCw = none)
    (ready : s.lcdReady = !(i == .lcdInit)) (words : s.cmds = cw :: rest) (turn : s.sched = .foreground :: turns) :
    step s = .next (((s.setSched turns).setCmds rest).beginOp cw) := by
  obtain ⟨-, foreground⟩ := stepRunsTheDecodedOperation
  rw [foreground s turns cw rest i turn idle words (decodeC_of_encode word)]
  exact exec_of_idle word lcd idle ready

/-- An LCD operation accepted by an idle block and given the turns it needs (R94, R95). -/
theorem runSteps_of_lcdOp {i : Instr} {cw : CmdWord} {rest : List CmdWord} {turns : List Turn} {s : State}
    (word : encode i = .cmd cw) (lcd : i.isLcdOp = true) (idle : s.lcdCw = none)
    (ready : s.lcdReady = !(i == .lcdInit)) (words : s.cmds = cw :: rest)
    (sched : s.sched = foregroundTurns ((microProgram s.cfg i).length + 1) ++ turns) :
    runSteps ((microProgram s.cfg i).length + 1) s = .next
      ((((s.performAll (microProgram s.cfg i)).setCmds rest).finishOp (i == .lcdInit)).setSched turns) := by
  rw [foregroundTurns_succ_append] at sched
  have program : uprog s.cfg cw = microProgram s.cfg i := uprog_of_decodeC (decodeC_of_encode word) s.cfg
  have notEmpty := List.ne_nil_of_length_pos (microProgram_length_pos lcd s.cfg)
  rw [runSteps_succ_of_next (step_of_lcdOp word lcd idle ready words sched)]
  -- `by exact` waits until the accepting state is known from the goal.
  refine (runSteps_of_left notEmpty rfl (by exact program) rfl).trans ?_
  rw [performAll_beginOp, performAll_setCmds, performAll_setSched, isInitWord_of_encode word]
  rfl

/-! ### Several operations, one after the other -/

theorem commandWord_of_encode {i : Instr} {cw : CmdWord} (word : encode i = .cmd cw) : commandWord i = some cw := by
  simp only [commandWord, word]

theorem exists_command_of_lcdOp {i : Instr} (lcd : i.isLcdOp = true) : ∃ cw, encode i = .cmd cw := by
  cases i with
  | edgeA p a b => cases lcd
  | edgeB p a b => cases lcd
  | rdpos => cases lcd
  | lcdInit => exact ⟨_, rfl⟩
  | lcdCmd byte => exact ⟨_, rfl⟩
  | lcdData byte => exact ⟨_, rfl⟩
  | lcdCursor col row => exact ⟨_, rfl⟩

/-- An idle, ready block has come from `s` to `t`, idle and ready again: the events of `prog` are appended, and unit Q,
the edge records and the parameters are as they were. -/
structure Emitted (s : State) (prog : List MicroOp) (t : State) : Prop where
  obs : t.obs = s.obs ++ prog.map eventOf
  idle : t.lcdCw = none
  ready : t.lcdReady = true
  position : t.position = s.position
  edges : t.edges = s.edges
  cfg : t.cfg = s.cfg

theorem Emitted.trans {s t u : State} {prog prog' : List MicroOp} (first : Emitted s prog t)
    (second : Emitted t prog' u) : Emitted s (prog ++ prog') u where
  obs := by rw [second.obs, first.obs, List.map_append, List.append_assoc]
  idle := second.idle
  ready := second.ready
  position := second.position.trans first.position
  edges := second.edges.trans first.edges
  cfg := second.cfg.trans first.cfg

/-- One operation accepted by an idle, ready block. -/
theorem runSteps_of_readyOp {i : Instr} {cw : CmdWord} {rest : List CmdWord} {turns : List Turn} {s : State}
    (word : encode i = .cmd cw) (lcd : i.isLcdOp = true) (notInit : i ≠ .lcdInit) (idle : s.lcdCw = none)
    (ready : s.lcdReady = true) (words : s.cmds = cw :: rest)
    (sched : s.sched = foregroundTurns ((microProgram s.cfg i).length + 1) ++ turns) :
    ∃ t, runSteps ((microProgram s.cfg i).length + 1) s = .next t ∧ Emitted s (microProgram s.cfg i) t ∧
      t.cmds = rest ∧ t.sched = turns := by
  have ready' : s.lcdReady = !(i == .lcdInit) := by rw [ready, beq_false_of_ne notInit, Bool.not_false]
  exact ⟨_, runSteps_of_lcdOp word lcd idle ready' words sched,
    ⟨by simp, rfl, by simp [ready], by simp, by simp, by simp⟩, rfl, rfl⟩

/-- The operations of `ops`, their words waiting at an idle, ready block, run in order (R109). -/
theorem runSteps_of_readyOps {c : Params} {ops : List Instr} (lcd : ∀ i ∈ ops, i.isLcdOp = true ∧ i ≠ .lcdInit)
    {s : State} (cfg : s.cfg = c) (idle : s.lcdCw = none) (ready : s.lcdReady = true)
    (words : s.cmds = ops.filterMap commandWord)
    (sched : s.sched = foregroundTurns (ops.length + (ops.flatMap (microProgram c)).length)) :
    ∃ t, runSteps (ops.length + (ops.flatMap (microProgram c)).length) s = .next t ∧
      Emitted s (ops.flatMap (microProgram c)) t ∧ t.cmds = [] := by
  induction ops generalizing s with
  | nil => exact ⟨s, rfl, ⟨(List.append_nil _).symm, idle, ready, rfl, rfl, rfl⟩, words⟩
  | cons i ops ih =>
    subst cfg
    obtain ⟨⟨lcdOp, notInit⟩, lcdOps⟩ := List.forall_mem_cons.mp lcd
    obtain ⟨cw, word⟩ := exists_command_of_lcdOp lcdOp
    have count : (i :: ops).length + ((i :: ops).flatMap (microProgram s.cfg)).length =
        ((microProgram s.cfg i).length + 1) + (ops.length + (ops.flatMap (microProgram s.cfg)).length) := by
      simp only [List.length_cons, List.flatMap_cons, List.length_append]
      omega
    rw [List.filterMap_cons_some (commandWord_of_encode word)] at words
    rw [count, foregroundTurns_add] at sched
    obtain ⟨u, first, emitted, words', sched'⟩ := runSteps_of_readyOp word lcdOp notInit idle ready words sched
    obtain ⟨t, others, emitted', consumed⟩ := ih lcdOps emitted.cfg emitted.idle emitted.ready words' sched'
    exact ⟨t, by rw [count, runSteps_add first, others], emitted.trans emitted', consumed⟩

/-- R66: a pseudo-operation stands for operations that a ready block accepts. -/
theorem readyOp_of_mem_expand (c : Params) (p : Pseudo) :
    ∀ i ∈ expand c p, i.isLcdOp = true ∧ i ≠ .lcdInit := by
  have print (text : List Byte) : ∀ i ∈ text.map Instr.lcdData, i.isLcdOp = true ∧ i ≠ .lcdInit :=
    List.forall_mem_map.mpr fun _ _ => ⟨rfl, nofun⟩
  cases p with
  | print text => exact print text
  | clear => exact List.forall_mem_singleton.mpr ⟨rfl, nofun⟩
  | frame text =>
    exact List.forall_mem_cons.mpr ⟨⟨rfl, nofun⟩, List.forall_mem_cons.mpr ⟨⟨rfl, nofun⟩, print text⟩⟩

/-- Settles O30: the operations run one after the other, and the invariant says where the last one leaves the enable
line and `lcd_pc`. -/
theorem pseudoOperationRunsInOrder : Obligations.PseudoOperationRunsInOrder := by
  refine ⟨fun c text => ⟨rfl, rfl, rfl⟩, fun s p inv idle ready words sched => ?_⟩
  obtain ⟨t, run, emitted, consumed⟩ :=
    runSteps_of_readyOps (readyOp_of_mem_expand s.cfg p) rfl idle ready words sched
  have inv' : t.Inv := runSteps_induct everyStepKeepsTheInvariant inv run
  obtain ⟨pc, low⟩ := (sequencerOk_idle emitted.idle).mp inv'.sequencer
  exact ⟨t, run, emitted.obs, emitted.idle, pc, emitted.ready, low, consumed, emitted.position, emitted.edges⟩

end Sys2Proof.Machine
end

section
/-! The frames a byte transfer latches (R57, R103), and the DisplayCommand that names them (R56). -/

namespace Sys2Proof.Machine

/-- A nibble latches one frame, under the selector level of the moment (R99, R103). -/
theorem scan_writeNibble (c : Params) (k : Scan) (n : Nibble) :
    ((writeNibble c n).map eventOf).foldl scanEvent k = ⟨k.rs, n, false, k.frames ++ [busFrame k.rs n]⟩ := rfl

/-- R57, R103: a byte transfer latches its high nibble and then its low nibble, under its own selector level. -/
theorem latched_writeByte (c : Params) (obs : List Event) (rs : Bool) (v : Byte) :
    latched (obs ++ (writeByte c rs v).map eventOf) =
      latched obs ++ [busFrame rs (hiNibble v), busFrame rs (loNibble v)] := by
  simp [latched, scan_append, writeByte, scan_writeNibble, eventOf, scanEvent]

/-- R57: the two frames of a DisplayCommand are those of the transfer of its payload under its flag. -/
theorem framesOfDispCmd_displayCommand (rs : Bool) (v : Byte) :
    framesOfDispCmd (displayCommand rs v) = [busFrame rs (hiNibble v), busFrame rs (loNibble v)] := by
  have flag : (displayCommand rs v).getLsbD 8 = rs := by
    rw [displayCommand, BitVec.getLsbD_append]
    exact BitVec.getLsbD_ofBool rs 0
  rw [framesOfDispCmd, flag, displayCommand, BitVec.extractLsb'_append_eq_of_add_le (by decide),
    BitVec.extractLsb'_append_eq_of_add_le (by decide), hiNibble, loNibble]

/-- R56: the DisplayCommand of a word, from the word's fields. -/
theorem dispCmdOfWord_fields (o z : BitVec 4) (p : Byte) :
    dispCmdOfWord (o ++ z ++ p) = displayCommand (o.getLsbD 0) p := by
  rw [dispCmdOfWord, payloadField_fields, BitVec.getLsbD_append, BitVec.getLsbD_append]
  rfl

/-- Settles O32: the flag is the low bit of the opcode, `0x2` or `0x3`, and the frames are those of the
byte transfer. -/
theorem displayCommandSaysTheFrames : Obligations.DisplayCommandSaysTheFrames := by
  intro c obs byte
  have cmd : dispCmdOfWord (wordLcdCmd byte) = displayCommand false byte := dispCmdOfWord_fields 0x2#4 0x0#4 byte
  have data : dispCmdOfWord (wordLcdData byte) = displayCommand true byte := dispCmdOfWord_fields 0x3#4 0x0#4 byte
  rw [cmd, data, framesOfDispCmd_displayCommand, framesOfDispCmd_displayCommand]
  exact ⟨rfl, rfl, latched_writeByte c obs false byte, latched_writeByte c obs true byte⟩

end Sys2Proof.Machine
end

section
/-! The edge operations of unit Q: the direction decode (R72), the wrap (R73), the two operations (R74, R75), and what
one edge record and an opposite one do to a position in range (R78, R81). -/

namespace Sys2Proof.Machine

/-! ### The direction decode and the wrap -/

theorem dir_chanA (a b : Bool) : dir .chanA a b = if a = b then 1 else -1 := by simp [dir]

theorem dir_chanB (a b : Bool) : dir .chanB a b = if a ≠ b then 1 else -1 := by simp [dir]

/-- Settles O8: the two rows of the table, and the XOR form on each pair of levels. -/
theorem directionDecodeTable : Obligations.DirectionDecodeTable := by
  refine ⟨fun a b => ⟨dir_chanA a b, dir_chanB a b⟩, fun a b => ?_⟩
  rw [dir_chanA, dir_chanB]
  cases a <;> cases b <;> decide

/-- The wrap moves only the two sums that have left the range. -/
theorem wrap_ne_self_iff {v : Int} (hl : -2049 ≤ v) (hu : v ≤ 2048) : wrap v ≠ v ↔ v = -2049 ∨ v = 2048 := by
  rw [wrap_eq_emod hl hu]
  omega

/-- Settles O9: the definition's branches, the remainder form on what the block produces, and the written-out values. -/
theorem wrapIsOneCorrection : Obligations.WrapIsOneCorrection :=
  ⟨fun _ => rfl, fun _ hl hu => ⟨wrap_eq_emod hl hu, wrap_ne_self_iff hl hu⟩, rfl, rfl, rfl, rfl⟩

/-! ### The two edge operations -/

theorem exec_edgeA (p : Polarity) (a b : Bool) (s : State) :
    exec (.edgeA p a b) s = .next (s.takeEdge .chanA a b) := rfl

theorem exec_edgeB (p : Polarity) (a b : Bool) (s : State) :
    exec (.edgeB p a b) s = .next (s.takeEdge .chanB a b) := rfl

/-- The corner case of a forward edge (R74, R75): from 2047 it leads to -2048. -/
theorem takeEdge_wraps_up {s : State} {c : Channel} {a b : Bool} (top : s.position = 2047) (forward : dir c a b = 1) :
    s.takeEdge c a b = s.setPosition (-2048) := by
  rw [State.takeEdge, top, forward]
  rfl

/-- The corner case of a backward edge (R74, R75): from -2048 it leads to 2047. -/
theorem takeEdge_wraps_down {s : State} {c : Channel} {a b : Bool} (bottom : s.position = -2048)
    (backward : dir c a b = -1) : s.takeEdge c a b = s.setPosition 2047 := by
  rw [State.takeEdge, bottom, backward]
  rfl

/-- Settles O6: `EDGE_A` takes an edge of channel A, forward when the levels are equal. -/
theorem edgeAMovesPosition : Obligations.EdgeAMovesPosition := by
  intro p a b s
  refine ⟨decodeE_edgeRecord false p a b, ?_, fun top eq => ?_, fun bottom ne => ?_⟩
  · rw [← dir_chanA]
    rfl
  · rw [exec_edgeA, takeEdge_wraps_up top (by rw [dir_chanA, if_pos eq])]
    rfl
  · rw [exec_edgeA, takeEdge_wraps_down bottom (by rw [dir_chanA, if_neg ne])]
    rfl

/-- Settles O7: `EDGE_B` takes an edge of channel B, forward when the levels differ, and channel A's direction is the
opposite. -/
theorem edgeBMovesPosition : Obligations.EdgeBMovesPosition := by
  intro p a b s
  refine ⟨decodeE_edgeRecord true p a b, ?_, fun top ne => ?_, fun bottom eq => ?_, fun p' => ?_⟩
  · rw [← dir_chanB]
    rfl
  · rw [exec_edgeB, takeEdge_wraps_up top (by rw [dir_chanB, if_pos ne])]
    rfl
  · rw [exec_edgeB, takeEdge_wraps_down bottom (by rw [dir_chanB, if_neg (not_not.mpr eq)])]
    rfl
  · rw [exec_edgeA, State.takeEdge, dir_chanA_eq_neg_dir_chanB, ← sub_eq_add_neg]
    rfl

/-- Settles O17, by evaluating the delta and the well-formedness of the eight records. -/
theorem cleanQuadratureCycles : Obligations.CleanQuadratureCycles := by
  unfold Obligations.CleanQuadratureCycles
  decide

/-! ### One edge, and an opposite one -/

/-- Two pulses of opposite direction lead from a position in range back to it (R78 item 5, R81). -/
theorem wrap_wrap_of_opposite {p : Int} (hl : -half ≤ p) (hu : p < half) {c c' : Channel} {a b a' b' : Bool}
    (opposite : dir c' a' b' = -dir c a b) : wrap (wrap (p + dir c a b) + dir c' a' b') = p := by
  rw [wrap_add_dir hl hu]
  obtain ⟨low, high⟩ := movedBy_inRange p (dir c a b)
  rw [wrap_add_dir low high, movedBy_movedBy, opposite, add_neg_cancel, movedBy_zero hl hu]

/-- One pulse always changes a position in range, by 1 or around an end of the range (R78 item 2). -/
theorem wrap_add_pulse {p d : Int} (hl : -half ≤ p) (hu : p < half) (pulse : d = 1 ∨ d = -1) :
    wrap (p + d) ≠ p ∧ (wrap (p + d) - p = 1 ∨ wrap (p + d) - p = -1 ∨
      (p = 2047 ∧ wrap (p + d) = -2048) ∨ (p = -2048 ∧ wrap (p + d) = 2047)) := by
  simp only [half] at hl hu
  rw [wrap_eq_emod (by omega) (by omega)]
  omega

/-- Settles O10: a record is one pulse, and the opposite record a pulse back. -/
theorem edgeStepKeepsRangeAndMovesByOne : Obligations.EdgeStepKeepsRangeAndMovesByOne := by
  intro r s t inRange h
  rw [exec_decodeE] at h
  cases h
  obtain ⟨changed, byOne⟩ := wrap_add_pulse inRange.1 inRange.2 (dir_eq_one_or_neg_one _ _ _)
  refine ⟨edgeDelta_inRange inRange r, changed, byOne, fun r' u opposite h => ?_⟩
  rw [exec_decodeE] at h
  cases h
  exact congrArg s.setPosition (wrap_wrap_of_opposite inRange.1 inRange.2 opposite)

theorem dir_chanB_eq_neg_dir_chanA (a b : Bool) : dir .chanB a b = -dir .chanA a b := by
  rw [dir_chanA_eq_neg_dir_chanB, neg_neg]

theorem takeEdge_takeEdge_of_opposite {s u : State} (inRange : s.positionInRange) {c c' : Channel} {a b a' b' : Bool}
    (between : u.position = (s.takeEdge c a b).position) (opposite : dir c' a' b' = -dir c a b) :
    (u.takeEdge c' a' b').position = s.position := by
  rw [State.takeEdge_position, between]
  exact wrap_wrap_of_opposite inRange.1 inRange.2 opposite

/-- Settles O13: the two channels' pulses of one pair of levels are opposite, in either order. -/
theorem bothChannelsCancel : Obligations.BothChannelsCancel := by
  refine ⟨dir_chanA_eq_neg_dir_chanB, fun p p' a b s s1 s2 t inRange first between second => ?_,
    fun p p' a b s s1 s2 t inRange first between second => ?_⟩
  · cases first
    cases second
    exact takeEdge_takeEdge_of_opposite inRange between (dir_chanB_eq_neg_dir_chanA a b)
  · cases first
    cases second
    exact takeEdge_takeEdge_of_opposite inRange between (dir_chanA_eq_neg_dir_chanB a b)

end Sys2Proof.Machine
end

section
/-! `RDPOS` and the port `rd_data` (R79, R30). -/

namespace Sys2Proof.Machine

theorem exec_rdpos_of_idle {s : State} (idle : s.lcdCw = none) :
    exec .rdpos s = .next (s.emit (.posRead s.position)) :=
  if_neg (by simp [State.lcdBusy_of_idle idle])

theorem rdData_toNat (s : State) : s.rdData.toNat = (s.position % (2 ^ s.cfg.posW : Nat)).toNat :=
  BitVec.toNat_ofInt ..

/-- Thirteen bits are enough for every position in range (R7, R14). -/
theorem rdData_toInt {s : State} (inRange : s.positionInRange) (wide : 13 ≤ s.cfg.posW) :
    s.rdData.toInt = s.position := by
  obtain ⟨low, high⟩ := inRange
  simp only [half] at low high
  have room : (2 : Int) ^ 12 ≤ 2 ^ (s.cfg.posW - 1) := pow_le_pow_right₀ (by decide) (by omega)
  exact BitVec.toInt_ofInt_eq_self (by omega) (by omega) (by omega)

/-- Settles O14: the effect on an idle block, the signed reading of `rd_data`, and its patterns on 16 bits. -/
theorem rdposReadsPosition : Obligations.RdposReadsPosition := by
  refine ⟨decodeC_of_encode (i := .rdpos) rfl, fun s => exec_rdpos_of_idle, fun s => rdData_toInt,
    fun s width => ?_, rfl⟩
  rw [rdData_toNat, width]
  refine ⟨fun h => ?_, fun h => ?_, fun h => ?_⟩ <;> rw [h] <;> rfl

end Sys2Proof.Machine
end

section
/-! Runs of the edge agent: the position a list of edge records leads to, one wrap a record, and its closed form (R78
items 3 and 4, R80). -/

namespace Sys2Proof.Machine

/-- The position a list of edge records leads to, from `p`. -/
def positionThrough (p : Int) : List EdgeRec → Int
  | [] => p
  | r :: rs => positionThrough (wrap (p + edgeDelta r)) rs

/-- The edge agent performs the records that wait, one a turn, in order, and changes nothing but the position (R84). -/
theorem runSteps_edgeTurns (rs : List EdgeRec) (s : State) :
    runSteps rs.length ((s.setEdges rs).setSched (edgeTurns rs.length)) =
      .next (((s.setPosition (positionThrough s.position rs)).setEdges []).setSched []) := by
  induction rs generalizing s with
  | nil => rfl
  | cons r rs ih =>
    have first : step ((s.setEdges (r :: rs)).setSched (edgeTurns (r :: rs).length)) =
        .next (((s.setPosition (wrap (s.position + edgeDelta r))).setEdges rs).setSched (edgeTurns rs.length)) := by
      rw [step_of_edge rfl, edgeTurn_of_record rfl, exec_decodeE]
      rfl
    refine (runSteps_succ_of_next first).trans ?_
    rw [ih]
    rfl

/-- From a position in range, the wraps of the records add up to one closed form (R78 item 3). -/
theorem positionThrough_eq_movedBy (rs : List EdgeRec) {p : Int} (hl : -half ≤ p) (hu : p < half) :
    positionThrough p rs = movedBy p (netDelta rs) := by
  induction rs generalizing p with
  | nil => exact (movedBy_zero hl hu).symm
  | cons r rs ih =>
    have one : wrap (p + edgeDelta r) = movedBy p (edgeDelta r) := wrap_add_dir hl hu ..
    obtain ⟨low, high⟩ := movedBy_inRange p (edgeDelta r)
    rw [positionThrough, one, ih low high, movedBy_movedBy, netDelta_cons]

/-- Settles O11: the run of the edge agent, by induction on the records, with the closed form of the position. -/
theorem edgeSequenceGivesClosedForm : Obligations.EdgeSequenceGivesClosedForm := by
  intro s inRange sched
  have run := runSteps_edgeTurns s.edges s
  rw [← sched, positionThrough_eq_movedBy s.edges inRange.1 inRange.2] at run
  exact run

theorem position_of_edgeRun {s t : State} (inRange : s.positionInRange) (sched : s.sched = edgeTurns s.edges.length)
    (run : runSteps s.edges.length s = .next t) : t.position = movedBy s.position (netDelta s.edges) := by
  rw [edgeSequenceGivesClosedForm s inRange sched] at run
  cases run
  rfl

/-- Whole turns do not show in the closed form (R80). -/
theorem movedBy_add_wholeTurns (p n k : Int) : movedBy p (n + 4096 * k) = movedBy p n := by
  simp only [movedBy, half, modulus]
  omega

theorem netDelta_of_forall_eq {rs : List EdgeRec} {d : Int} (h : ∀ r ∈ rs, edgeDelta r = d) :
    netDelta rs = rs.length * d := by
  rw [netDelta, List.sum_eq_card_nsmul _ d (List.forall_mem_map.mpr h), List.length_map, nsmul_eq_mul]

/-- Settles O12: each run ends at the closed form, in which whole turns do not show. -/
theorem wholeTurnsAreInvisible : Obligations.WholeTurnsAreInvisible := by
  refine ⟨?_, ?_, fun rs length forward => ?_, fun rs length backward => ?_⟩
  · rintro s s' t t' inRange same sched sched' ⟨k, sums⟩ run run'
    have inRange' : s'.positionInRange := by rwa [State.positionInRange, same]
    rw [position_of_edgeRun inRange' sched' run', position_of_edgeRun inRange sched run, same, sums,
      movedBy_add_wholeTurns]
  · rintro s t inRange sched ⟨k, sum⟩ run
    rw [position_of_edgeRun inRange sched run, sum, ← zero_add (4096 * k), movedBy_add_wholeTurns,
      movedBy_zero inRange.1 inRange.2]
  · rw [netDelta_of_forall_eq forward, length]
    rfl
  · rw [netDelta_of_forall_eq backward, length]
    rfl

end Sys2Proof.Machine
end

section
/-! The clock tick outside reset: the foreground agent's part, and the front end as a run of the edge agent on the
records it derives (R82). -/

namespace Sys2Proof.Machine

/-! ### The turn of a tick -/

theorem step_of_tick {s : State} {inp : TickIn} {turns : List Turn} (turn : s.sched = .tick inp :: turns) :
    step s = tick inp (s.setSched turns) := by
  simp only [step, turn, takeTurn]

/-- A tick outside reset whose foreground part answers a state ends with the front end on that state. -/
theorem step_of_tick_foreground {s u : State} {inp : TickIn} {turns : List Turn}
    (turn : s.sched = .tick inp :: turns) (high : inp.rstN = true)
    (foreground : tickForeground inp (s.setSched turns) = .next u) :
    step s = .next (frontEnd inp.encA inp.encB u) := by
  simp only [step_of_tick turn, tick, high, if_true, foreground]

theorem step_of_tick_next {s t : State} {inp : TickIn} {turns : List Turn} (turn : s.sched = .tick inp :: turns)
    (high : inp.rstN = true) (h : step s = .next t) :
    ∃ u, tickForeground inp (s.setSched turns) = .next u ∧ t = frontEnd inp.encA inp.encB u := by
  rw [step_of_tick turn] at h
  obtain ⟨low, -⟩ | ⟨-, ends⟩ := tick_next h
  · simp [high] at low
  · exact ends

theorem tickForeground_of_no_word {s : State} {inp : TickIn} (idle : s.lcdCw = none) (noWord : inp.cmdValid = false) :
    tickForeground inp s = .next s := by
  simp [tickForeground, idle, noWord]

theorem tickForeground_of_word {s : State} {inp : TickIn} (idle : s.lcdCw = none) (word : inp.cmdValid = true) :
    tickForeground inp s = acceptWord inp.cmdWord s := by
  simp [tickForeground, idle, word]

/-- Settles O50: the read is the foreground agent's part, and the front end after it appends nothing. -/
theorem rdposInATickReadsThePriorPosition : Obligations.RdposInATickReadsThePriorPosition := by
  intro s inp turns turn high idle valid word
  have rdpos : decodeC inp.cmdWord = .op .rdpos := word ▸ decodeC_of_encode (i := .rdpos) rfl
  have foreground : tickForeground inp (s.setSched turns) = .next ((s.setSched turns).emit (.posRead s.position)) := by
    rw [tickForeground_of_word (s := s.setSched turns) idle valid, acceptWord_of_op rdpos]
    exact exec_rdpos_of_idle (s := s.setSched turns) idle
  exact ⟨_, step_of_tick_foreground turn high foreground, frontEnd_obs ..⟩

/-! ### The records of the front end -/

theorem mem_frontEndRecords {s : State} {a b : Bool} {r : EdgeRec} (h : r ∈ frontEndRecords s a b) :
    r = edgeRecord false (polarityOfBit a) a b ∨ r = edgeRecord true (polarityOfBit b) a b := by
  unfold frontEndRecords at h
  split_ifs at h <;> simp_all

/-- R62, R82: the polarity of a record is the new level of the channel that changed. -/
theorem wellFormed_of_mem_frontEndRecords {s : State} {a b : Bool} {r : EdgeRec} (h : r ∈ frontEndRecords s a b) :
    (decodeE r).wellFormed = true := by
  obtain rfl | rfl := mem_frontEndRecords h <;>
    simp [decodeE_edgeRecord, Instr.wellFormed, bitOfPolarity_polarityOfBit]

theorem edgeDelta_edgeRecord (c : Bool) (p : Polarity) (a b : Bool) :
    edgeDelta (edgeRecord c p a b) = dir (if c then .chanB else .chanA) a b := by
  cases c <;> cases p <;> cases a <;> cases b <;> rfl

/-- The front end moves the position as its records do, one after the other (R82). -/
theorem frontEnd_position (a b : Bool) (s : State) :
    (frontEnd a b s).position = positionThrough s.position (frontEndRecords s a b) := by
  unfold frontEnd frontEndRecords
  split_ifs <;> simp [positionThrough, edgeDelta_edgeRecord]

/-- When both channels changed, the two records cancel (R81, R135). -/
theorem netDelta_frontEndRecords_of_both {s : State} {a b : Bool} (primed : s.primed = true) (changedA : a ≠ s.aQ)
    (changedB : b ≠ s.bQ) : netDelta (frontEndRecords s a b) = 0 := by
  simp [frontEndRecords, primed, changedA, changedB, netDelta, edgeDelta_edgeRecord, dir_chanA_eq_neg_dir_chanB]

/-- The front end is the edge agent's run on the records it derives, and then the load of the sample (R82). -/
theorem runSteps_frontEndRecords (a b : Bool) (s : State) :
    runSteps (frontEndRecords s a b).length
        ((s.setEdges (frontEndRecords s a b)).setSched (edgeTurns (frontEndRecords s a b).length)) =
      .next (((s.setPosition (frontEnd a b s).position).setEdges []).setSched []) := by
  rw [runSteps_edgeTurns, frontEnd_position]

/-- The foreground agent's part of a tick leaves what the front end reads of the old sample. -/
theorem ForegroundMove.frontEndRecords_eq {s t : State} (h : ForegroundMove s t) (a b : Bool) :
    frontEndRecords t a b = frontEndRecords s a b := by
  cases h <;> simp [frontEndRecords]

/-- Settles O51: whatever the foreground agent did, the two records the front end derives cancel. -/
theorem bothChannelsInATickCancel : Obligations.BothChannelsInATickCancel := by
  intro s t inp turns turn high inRange primed changedA changedB h
  obtain ⟨u, foreground, rfl⟩ := step_of_tick_next turn high h
  have move := tickForeground_move foreground
  have still : netDelta (frontEndRecords (s.setSched turns) inp.encA inp.encB) = 0 :=
    netDelta_frontEndRecords_of_both primed changedA changedB
  rw [frontEnd_position, move.frontEndRecords_eq, move.position_eq, State.setSched_position,
    positionThrough_eq_movedBy _ inRange.1 inRange.2, still]
  exact movedBy_zero inRange.1 inRange.2

/-! ### A tick with no command word -/

/-- The front end, primed, by the position after channel A's part and after channel B's (R82). -/
theorem frontEnd_of_primed {s : State} {a b : Bool} {p1 p2 : Int} (primed : s.primed = true)
    (h1 : p1 = if a ≠ s.aQ then wrap (s.position + dir .chanA a b) else s.position)
    (h2 : p2 = if b ≠ s.bQ then wrap (p1 + dir .chanB a b) else p1) :
    frontEnd a b s = (s.setPosition p2).latchSample a b := by
  subst h1 h2
  rw [frontEnd_eq, frontEnd_position]
  by_cases changedA : a = s.aQ <;> by_cases changedB : b = s.bQ <;>
    simp [frontEndRecords, positionThrough, edgeDelta_edgeRecord, primed, changedA, changedB]

theorem latchSample_of_primed {s : State} (primed : s.primed = true) (a b : Bool) :
    s.latchSample a b = { s with aQ := a, bQ := b } := by
  rw [State.latchSample, ← primed]

/-- Settles O49: with no word the foreground agent's part is nothing, so that the tick is the front end. -/
theorem frontEndTick : Obligations.FrontEndTick := by
  refine ⟨fun s inp turns turn high idle noWord unprimed => ?_,
    fun s inp turns p1 p2 turn high idle noWord primed h1 h2 => ?_, fun s a b r => wellFormed_of_mem_frontEndRecords⟩
  · rw [step_of_tick_foreground turn high (tickForeground_of_no_word (s := s.setSched turns) idle noWord),
      frontEnd_of_unprimed (s := s.setSched turns) unprimed]
    rfl
  · rw [← dir_chanA] at h1
    rw [← dir_chanB] at h2
    rw [step_of_tick_foreground turn high (tickForeground_of_no_word (s := s.setSched turns) idle noWord),
      frontEnd_of_primed (s := s.setSched turns) primed h1 h2,
      latchSample_of_primed (s := (s.setSched turns).setPosition p2) primed]
    rfl

/-! ### The tick as steps of the two agents -/

/-- Settles O53: the cases of the foreground agent's part are those of `tickForeground_next`, each a step of the
foreground agent or no step, and the front end is the edge agent's run on its records. -/
theorem tickIsAgentSteps : Obligations.TickIsAgentSteps := by
  intro s t inp turns turn high h
  obtain ⟨u, foreground, rfl⟩ := step_of_tick_next turn high h
  have move := tickForeground_move foreground
  have records : frontEndRecords u inp.encA inp.encB = frontEndRecords s inp.encA inp.encB :=
    move.frontEndRecords_eq ..
  have edges : u.edges = s.edges := move.edges_eq
  have sched : u.sched = turns := move.sched_eq
  refine ⟨u, ?_, ?_⟩
  · obtain ⟨d, wait, left, rfl⟩ | ⟨cw, busy, ended, performs⟩ | ⟨idle, noWord, rfl⟩ | ⟨idle, word, accepts⟩ :=
      tickForeground_next foreground
    · exact .inr (.inl ⟨d, wait, left, rfl⟩)
    · exact .inr (.inr (.inl ⟨State.lcdBusy_of_op busy, ended,
        (foregroundTurn_of_busy (s := s.setSched turns) busy).trans performs⟩))
    · exact .inl ⟨idle, noWord, rfl⟩
    · have accepted := foregroundTurn_of_word
        (s := (s.setSched turns).setCmds (inp.cmdWord :: s.cmds)) (cw := inp.cmdWord) (rest := s.cmds) idle rfl
      exact .inr (.inr (.inr ⟨State.lcdBusy_of_idle idle, word, accepted.trans accepts⟩))
  · rw [← records, ← edges, ← sched]
    exact ⟨_, runSteps_frontEndRecords inp.encA inp.encB u, frontEnd_eq inp.encA inp.encB u⟩

end Sys2Proof.Machine
end

section
/-! The acceptance of an LCD operation by an idle block (R94), where it is refused (R113, R114), and its run to
completion. -/

namespace Sys2Proof.Machine

/-! ### Acceptance -/

/-- Settles O18: `LCD_INIT` is the operation an idle block accepts before it is ready. -/
theorem lcdInitIsAccepted : Obligations.LcdInitIsAccepted :=
  fun _ idle notReady => exec_of_idle (i := .lcdInit) rfl rfl idle notReady

/-- Settles O19: the other three are those an idle block accepts once it is ready. -/
theorem readyBlockAcceptsLcdOperations : Obligations.ReadyBlockAcceptsLcdOperations :=
  fun _ idle ready =>
    ⟨fun byte => exec_of_idle (i := .lcdCmd byte) rfl rfl idle ready,
      fun byte => exec_of_idle (i := .lcdData byte) rfl rfl idle ready,
      fun col row => exec_of_idle (i := .lcdCursor col row) rfl rfl idle ready⟩

theorem acceptWhenReady_of_notReady {s : State} (idle : s.lcdCw = none) (notReady : s.lcdReady = false)
    (cw : CmdWord) : acceptWhenReady cw s = .refused .notInitialized := by
  simp [acceptWhenReady, State.lcdBusy_of_idle idle, notReady]

/-- R113: before `LCD_INIT` every other LCD operation is refused. -/
theorem exec_of_notReady {i : Instr} {s : State} (lcd : i.isLcdOp = true) (notInit : i ≠ .lcdInit)
    (idle : s.lcdCw = none) (notReady : s.lcdReady = false) : exec i s = .refused .notInitialized := by
  cases i with
  | edgeA p a b => cases lcd
  | edgeB p a b => cases lcd
  | rdpos => cases lcd
  | lcdInit => exact absurd rfl notInit
  | lcdCmd byte => exact acceptWhenReady_of_notReady idle notReady _
  | lcdData byte => exact acceptWhenReady_of_notReady idle notReady _
  | lcdCursor col row => exact acceptWhenReady_of_notReady idle notReady _

/-- Settles O20: each of the three is an LCD operation other than `LCD_INIT`. -/
theorem lcdBeforeInitIsRefused : Obligations.LcdBeforeInitIsRefused :=
  fun _ idle notReady =>
    ⟨fun _ => exec_of_notReady rfl nofun idle notReady, fun _ => exec_of_notReady rfl nofun idle notReady,
      fun _ _ => exec_of_notReady rfl nofun idle notReady⟩

/-- Settles O21: the acceptance of `LCD_INIT` asks whether the driver is ready. -/
theorem secondInitIsRefused : Obligations.SecondInitIsRefused := by
  intro s idle ready
  simp [exec, execLcdInit, acceptInit, State.lcdBusy_of_idle idle, ready]

/-! ### The run to completion -/

theorem performAll_pinsMatchTrace {s : State} (h : s.pinsMatchTrace) (ms : List MicroOp) :
    (s.performAll ms).pinsMatchTrace := by
  induction ms generalizing s with
  | nil => exact h
  | cons m ms ih => exact ih (perform_pinsMatchTrace h m)

theorem performAll_lcdE (s : State) (ms : List MicroOp) : (s.performAll ms).lcdE = enableAfter s.lcdE ms := by
  induction ms generalizing s with
  | nil => rfl
  | cons m ms ih => rw [performAll_cons, ih, perform_lcdE, ← enableAfter_append]; rfl

/-- Settles O29: the run is that of the operation's micro-program, after which the pins match the trace and the enable
line is where the program leaves it, low. -/
theorem lcdOperationRunsToCompletion : Obligations.LcdOperationRunsToCompletion := by
  intro s i cw rest inv idle words word lcd ready sched
  obtain ⟨pc, low⟩ := (sequencerOk_idle idle).mp inv.sequencer
  obtain ⟨rs, d, -⟩ := performAll_pinsMatchTrace inv.pins (microProgram s.cfg i)
  have line : (s.performAll (microProgram s.cfg i)).lcdE = false := by
    rw [performAll_lcdE, low, enableAfter_microProgram lcd]
  have nowReady : (s.lcdReady || i == .lcdInit) = true := by rw [ready, Bool.not_or_self]
  rw [runSteps_of_lcdOp (turns := []) (encode_of_decodeC word) lcd idle ready words (by rw [sched, List.append_nil]),
    performAll_eq, rs, d, line, performAll_obs]
  simp only [State.setCmds, State.finishOp, State.setSched, nowReady, idle, pc]

/-! ### The steps of the sequencer -/

/-- Settles O23: each micro-operation is its pin write, or the delay alone. -/
theorem microOperationEffects : Obligations.MicroOperationEffects :=
  fun _ => ⟨fun _ => rfl, fun _ => rfl, fun _ => rfl, fun _ => rfl⟩

/-- R104, R105, R106, R108: a byte write has 12 micro-operations, `LCD_INIT` more. -/
theorem twelve_le_length_microProgram {i : Instr} (lcd : i.isLcdOp = true) (c : Params) :
    12 ≤ (microProgram c i).length := by
  cases i with
  | edgeA p a b => cases lcd
  | edgeB p a b => cases lcd
  | rdpos => cases lcd
  | lcdInit => exact Nat.le_add_left 12 62
  | lcdCmd byte => exact le_rfl
  | lcdData byte => exact le_rfl
  | lcdCursor col row => exact le_rfl

/-- The micro step of the foreground agent, by the operation in progress (R94). -/
theorem step_of_current {s : State} {turns : List Turn} {cw : CmdWord} {i : Instr} {m : MicroOp}
    (turn : s.sched = .foreground :: turns) (busy : s.lcdCw = some cw) (word : decodeC cw = .op i)
    (current : (microProgram s.cfg i)[s.lcdPc]? = some m) :
    step s = .next ((if s.lcdPc + 1 = (microProgram s.cfg i).length then (s.perform m).finishOp (i == .lcdInit)
      else (s.perform m).nextMicro).setSched turns) := by
  obtain ⟨inside, at_pc⟩ := List.getElem?_eq_some_iff.mp current
  have left : (uprog s.cfg cw).drop s.lcdPc = m :: (microProgram s.cfg i).drop (s.lcdPc + 1) := by
    rw [uprog_of_decodeC word, List.drop_eq_getElem_cons inside, at_pc]
  have last : (microProgram s.cfg i).drop (s.lcdPc + 1) = [] ↔ s.lcdPc + 1 = (microProgram s.cfg i).length := by
    rw [List.drop_eq_nil_iff]
    omega
  simp only [step_of_left busy left turn, last, isInitWord_of_encode (encode_of_decodeC word)]

/-- Settles O24: a waiting word goes to the acceptance of the operation it decodes to, and the micro step performs the
micro-operation at `lcd_pc`. -/
theorem sequencerAcceptsAndSteps : Obligations.SequencerAcceptsAndSteps := by
  refine ⟨fun s turns cw rest turn idle words => ?_, fun s turns cw i m turn busy word current => ?_,
    fun c i lcd => twelve_le_length_microProgram lcd c⟩
  · obtain ⟨-, foreground⟩ := stepRunsTheDecodedOperation
    obtain ⟨-, -, reserved⟩ := reservedWordsAreRefused cw
    have runs {i : Instr} (word : decodeC cw = .op i) : step s = exec i { s with sched := turns, cmds := rest } :=
      foreground s turns cw rest i turn idle words word
    refine ⟨fun why word => ?_, fun word => ?_, fun word ready => ?_, fun word notReady => ?_,
      fun i word lcd notInit notReady => ?_, fun i word lcd notInit ready => ?_⟩
    · exact reserved ⟨why, word⟩ s turns rest turn idle words
    · exact (runs word).trans (exec_rdpos_of_idle idle)
    · exact (runs word).trans (secondInitIsRefused _ idle ready)
    · exact step_of_lcdOp (encode_of_decodeC word) rfl idle notReady words turn
    · exact (runs word).trans (exec_of_notReady lcd notInit idle notReady)
    · have ready' : s.lcdReady = !(i == .lcdInit) := by rw [ready, beq_false_of_ne notInit, Bool.not_false]
      exact step_of_lcdOp (encode_of_decodeC word) lcd idle ready' words turn
  · rw [step_of_current turn busy word current]
    split_ifs <;> simp [State.finishOp, State.nextMicro, State.setSched]

end Sys2Proof.Machine
end

section
/-! The micro-programs written out (R98 to R101, R104 to R106, R108), their counts (R116, R164), and the frames
`LCD_INIT` latches (R103, R104). -/

namespace Sys2Proof.Machine

/-! ### The programs -/

/-- Settles O25: each part is its definition. -/
theorem byteTransferProgram : Obligations.ByteTransferProgram :=
  fun _ _ _ _ => ⟨rfl, rfl, rfl, rfl, rfl⟩

/-- Settles O27: the reset nibbles are 3, 3, 3, 2. -/
theorem initProgram : Obligations.InitProgram := fun _ => ⟨rfl, rfl⟩

/-- R101: with the selector high every byte takes the short delay. -/
theorem postDelay_of_high (c : Params) (v : Byte) : postDelay c true v = c.tChar := by simp [postDelay]

/-- Settles O26: the three bytes of the rule, the first of them the parameter `CMD_CLEAR`. -/
theorem postDelayRule : Obligations.PostDelayRule := by
  intro c rs v clear
  simp only [postDelay, clear, List.mem_cons, List.not_mem_nil, or_false]

/-! ### The cursor's address -/

/-- R38, R108: the row's base plus the column does not wrap. -/
theorem ddramAddr_toNat (col : BitVec 6) (row : BitVec 1) :
    (ddramAddr col row).toNat = (if row = 0#1 then 0x00 else 0x40) + col.toNat := by
  have inRow := col.isLt
  simp only [ddramAddr, rowBase, BitVec.toNat_add, BitVec.toNat_setWidth]
  split_ifs <;> simp only [BitVec.toNat_ofNat] <;> omega

/-- R38: columns 0 to 15 of either row are the visible ones. -/
theorem ddramVisible_ddramAddr (col : BitVec 6) (row : BitVec 1) :
    ddramVisible (ddramAddr col row) = true ↔ col.toNat < 16 := by
  have inRow := col.isLt
  simp only [ddramVisible, ddramAddr_toNat, lcdCols, Bool.or_eq_true, Bool.and_eq_true, decide_eq_true_eq]
  split_ifs <;> omega

/-- Format A of R58: the bit of `CMD_SET_DDRAM`, the row and the column do not overlap. -/
theorem cursorByte_fields {c : Params} (setDdram : c.cmdSetDdram = 0x80#8) (col : BitVec 6) (row : BitVec 1) :
    cursorByte c col row = 1#1 ++ row ++ col := by
  rw [cursorByte, setDdram]
  revert col row
  decide

/-- R101, R108: the set-address byte has its top bit set, so it is none of the bytes with the long delay. -/
theorem postDelay_cursorByte {c : Params} (setDdram : c.cmdSetDdram = 0x80#8) (clear : c.cmdClear = 0x01#8)
    (col : BitVec 6) (row : BitVec 1) : postDelay c false (cursorByte c col row) = c.tChar := by
  have notLong : 1#1 ++ row ++ col ∉ [0x01#8, 0x02#8, 0x03#8] := by
    revert col row
    decide
  rw [postDelayRule c _ _ clear, cursorByte_fields setDdram, if_neg fun ⟨_, long⟩ => notLong long]

/-- Settles O28, from the address and the byte of format A. -/
theorem cursorSendsItsAddress : Obligations.CursorSendsItsAddress :=
  fun _ col row =>
    ⟨ddramAddr_toNat col row, rfl, fun setDdram => cursorByte_fields setDdram col row,
      fun setDdram clear => postDelay_cursorByte setDdram clear col row, ddramVisible_ddramAddr col row⟩

/-! ### Counts and delays -/

@[simp] theorem enablePulses_writeNibble (c : Params) (n : Nibble) : enablePulses (writeNibble c n) = 1 := rfl

@[simp] theorem delaySum_writeNibble (c : Params) (n : Nibble) :
    delaySum (writeNibble c n) = c.tEnHigh + c.tEnSettle := by
  simp [delaySum, writeNibble, pulseE, MicroOp.delay]

@[simp] theorem enablePulses_writeByte (c : Params) (rs : Bool) (v : Byte) : enablePulses (writeByte c rs v) = 2 := rfl

/-- R100, R116: a byte write waits for two nibbles and then for the post delay. -/
theorem delaySum_writeByte (c : Params) (rs : Bool) (v : Byte) :
    delaySum (writeByte c rs v) = 2 * (c.tEnHigh + c.tEnSettle) + postDelay c rs v := by
  have selector : delaySum [.setRs rs] = 0 := rfl
  have settle : delaySum [.wait (postDelay c rs v)] = postDelay c rs v := rfl
  rw [writeByte, delaySum_append, delaySum_append, delaySum_append, selector, settle, delaySum_writeNibble,
    delaySum_writeNibble]
  omega

theorem delaySum_lcdData (c : Params) (byte : Byte) :
    delaySum (microProgram c (.lcdData byte)) = 2 * (c.tEnHigh + c.tEnSettle) + c.tChar :=
  postDelay_of_high c byte ▸ delaySum_writeByte c true byte

/-- R116: the default delays of a command byte, long for clear and return-home. -/
theorem delaySum_lcdCmd_default (byte : Byte) : delaySum (microProgram defaultParams (.lcdCmd byte)) =
    if byte ∈ [0x01#8, 0x02#8, 0x03#8] then 2102 else 152 := by
  rw [microProgram, uprogCmd, delaySum_writeByte, postDelayRule defaultParams false byte rfl]
  split_ifs <;> simp_all [defaultParams]

theorem delaySum_lcdCursor_default (col : BitVec 6) (row : BitVec 1) :
    delaySum (microProgram defaultParams (.lcdCursor col row)) = 152 := by
  rw [microProgram, uprogCursor, delaySum_writeByte, postDelay_cursorByte rfl rfl]
  rfl

/-- Settles O36: the counts are those of the byte writes, and `LCD_INIT` is evaluated with the default parameters. -/
theorem operationCountsAndDelays : Obligations.OperationCountsAndDelays := by
  intro c byte col row n
  refine ⟨rfl, enablePulses_writeNibble c n, delaySum_writeNibble c n, ?_, delaySum_writeByte c false byte,
    delaySum_lcdData c byte, delaySum_writeByte c false _, rfl, by decide, delaySum_lcdCmd_default byte,
    delaySum_lcdData defaultParams byte, delaySum_lcdCursor_default col row⟩
  simp only [List.forall_mem_cons, List.not_mem_nil, false_imp_iff, implies_true, and_true]
  exact ⟨⟨rfl, rfl⟩, ⟨rfl, rfl⟩, ⟨rfl, rfl⟩⟩

/-! ### Counts and delays of the pseudo-operations -/

/-- R109: what a measure that adds up over programs says of `PRINT`, from what it says of each byte. -/
theorem measure_print {measure : List MicroOp → Nat} (nil : measure [] = 0)
    (append : ∀ xs ys, measure (xs ++ ys) = measure xs + measure ys) {c : Params} {k : Nat}
    (byte : ∀ v, measure (microProgram c (.lcdData v)) = k) (text : List Byte) :
    measure (pseudoProgram c (.print text)) = k * text.length := by
  induction text with
  | nil => exact nil
  | cons v text ih =>
    have first : pseudoProgram c (.print (v :: text)) =
        microProgram c (.lcdData v) ++ pseudoProgram c (.print text) := rfl
    rw [first, append, byte, ih, List.length_cons, Nat.mul_succ, Nat.add_comm]

/-- R111: `FRAME` clears, moves the cursor and prints. -/
theorem pseudoProgram_frame (c : Params) (text : List Byte) : pseudoProgram c (.frame text) =
    microProgram c (.lcdCmd c.cmdClear) ++ (microProgram c (.lcdCursor 0#6 0#1) ++ pseudoProgram c (.print text)) := rfl

/-- Settles O37: each count adds up over the bytes of the text. -/
theorem pseudoOperationCounts : Obligations.PseudoOperationCounts := by
  intro text
  have ops : (pseudoProgram defaultParams (.print text)).length = 12 * text.length :=
    measure_print rfl (fun _ _ => List.length_append) (fun _ => rfl) text
  have pulses : enablePulses (pseudoProgram defaultParams (.print text)) = 2 * text.length :=
    measure_print rfl enablePulses_append (enablePulses_writeByte _ _) text
  have delays : delaySum (pseudoProgram defaultParams (.print text)) = 152 * text.length :=
    measure_print rfl delaySum_append (delaySum_lcdData _) text
  refine ⟨ops, pulses, delays, ?_, ?_, ?_⟩
  · rw [pseudoProgram_frame, List.length_append, List.length_append, ops, ← Nat.add_assoc]
    rfl
  · rw [pseudoProgram_frame, enablePulses_append, enablePulses_append, pulses, ← Nat.add_assoc]
    rfl
  · rw [pseudoProgram_frame, delaySum_append, delaySum_append, delays, delaySum_lcdCmd_default,
      delaySum_lcdCursor_default, ← Nat.add_assoc]
    rfl

/-! ### Frames -/

/-- Settles O31: the two nibbles are the byte's high and low bits. -/
theorem byteTransferLatchesTwoFrames : Obligations.ByteTransferLatchesTwoFrames := latched_writeByte

/-- The reset nibbles of `LCD_INIT`, sent with the selector low, and then its four commands (R104). -/
theorem latched_uprogInit (c : Params) (obs : List Event) : latched (obs ++ (uprogInit c).map eventOf) =
    latched obs ++ [initNibble1, initNibble2, initNibble3, initNibble4,
      hiNibble c.cmdFunctionSet, loNibble c.cmdFunctionSet, hiNibble c.cmdDisplayCtrl, loNibble c.cmdDisplayCtrl,
      hiNibble c.cmdEntryMode, loNibble c.cmdEntryMode, hiNibble c.cmdClear, loNibble c.cmdClear].map
        (busFrame false) := by
  simp only [uprogInit, List.map_append, ← List.append_assoc, latched_writeByte]
  simp [latched, scan_append, scan_writeNibble, eventOf, scanEvent]

/-- Settles O33: the default command bytes are put into the twelve frames. -/
theorem initLatchesTwelveFrames : Obligations.InitLatchesTwelveFrames := by
  intro c obs
  have frames := latched_uprogInit c obs
  refine ⟨frames, fun functionSet displayCtrl entryMode clear => ?_⟩
  rw [functionSet, displayCtrl, entryMode, clear] at frames
  exact frames

end Sys2Proof.Machine
end

section
/-! The bus around the enable pulse (R102). -/

namespace Sys2Proof.Machine

theorem busStable_writeNibble_append (c : Params) (n : Nibble) (rest : List MicroOp) :
    busStable false (writeNibble c n ++ rest) = busStable false rest := rfl

theorem busStable_writeByte_append (c : Params) (rs : Bool) (v : Byte) (rest : List MicroOp) :
    busStable false (writeByte c rs v ++ rest) = busStable false rest := rfl

theorem busStable_writeByte (c : Params) (rs : Bool) (v : Byte) : busStable false (writeByte c rs v) = true := rfl

/-- Settles O34: a program is made of nibble and byte writes, each of which leaves the line low, and waits between. -/
theorem everyProgramIsBusStable : Obligations.EveryProgramIsBusStable := by
  intro c i lcd
  cases i with
  | edgeA p a b => cases lcd
  | edgeB p a b => cases lcd
  | rdpos => cases lcd
  | lcdInit =>
    simp only [microProgram, uprogInit, List.append_assoc, List.cons_append, List.nil_append, busStable,
      busStable_writeNibble_append, busStable_writeByte_append, busStable_writeByte, Bool.not_false, Bool.and_self]
  | lcdCmd byte => exact busStable_writeByte ..
  | lcdData byte => exact busStable_writeByte ..
  | lcdCursor col row => exact busStable_writeByte ..

/-- R102: where the enable line is high in a stable program, a micro-operation writes it or waits. -/
theorem setE_or_wait_of_high {e : Bool} {prog : List MicroOp} (stable : busStable e prog = true) {k : Nat}
    {m : MicroOp} (current : prog[k]? = some m) (high : enableAfter e (prog.take k) = true) :
    (∃ v, m = .setE v) ∨ (∃ t, m = .wait t) := by
  induction e, prog using busStable.induct generalizing k with
  | case1 e => cases current
  | case2 e v rest ih =>
    obtain ⟨rfl, stable⟩ : e = false ∧ busStable e rest = true := by simpa [busStable] using stable
    cases k with
    | zero => cases high
    | succ k => exact ih stable current high
  | case3 e n rest ih =>
    obtain ⟨rfl, stable⟩ : e = false ∧ busStable e rest = true := by simpa [busStable] using stable
    cases k with
    | zero => cases high
    | succ k => exact ih stable current high
  | case4 e t rest ih =>
    obtain ⟨-, stable⟩ : e = false ∧ busStable e rest = true := by simpa [busStable] using stable
    cases k with
    | zero => cases current; exact .inr ⟨t, rfl⟩
    | succ k => exact ih stable current high
  | case5 e t rest ih =>
    obtain ⟨-, stable⟩ : e = false ∧ busStable false rest = true := by simpa [busStable] using stable
    match k with
    | 0 => cases current; exact .inl ⟨true, rfl⟩
    | 1 => cases current; exact .inr ⟨t, rfl⟩
    | 2 => cases current; exact .inl ⟨false, rfl⟩
    | k + 3 => exact ih stable current high
  | case6 e v tail notPulse =>
    have unstable : busStable e (.setE v :: tail) = false := by
      rw [busStable]
      exact notPulse
    exact absurd (unstable.symm.trans stable) (by decide)

/-- In a state that meets the invariant, a micro-operation with the enable line high before or after it holds the
selector and the data lines (R102). -/
theorem perform_lines_of_high {s : State} {cw : CmdWord} {m : MicroOp} (ok : s.sequencerOk) (busy : s.lcdCw = some cw)
    (current : (uprog s.cfg cw)[s.lcdPc]? = some m) (high : s.lcdE = true ∨ (s.perform m).lcdE = true) :
    (s.perform m).lcdRs = s.lcdRs ∧ (s.perform m).lcdD = s.lcdD := by
  obtain ⟨i, word, lcd, -, line, -⟩ := (sequencerOk_busy busy).mp ok
  rw [uprog_of_decodeC word] at current
  have pulse (up : s.lcdE = true) : (∃ v, m = .setE v) ∨ (∃ t, m = .wait t) :=
    setE_or_wait_of_high (everyProgramIsBusStable s.cfg i lcd) current (line ▸ up)
  cases m with
  | setRs v => obtain ⟨_, ⟨⟩⟩ | ⟨_, ⟨⟩⟩ := pulse (or_self_iff.mp high)
  | setD n => obtain ⟨_, ⟨⟩⟩ | ⟨_, ⟨⟩⟩ := pulse (or_self_iff.mp high)
  | setE v => exact ⟨rfl, rfl⟩
  | wait t => exact ⟨rfl, rfl⟩

theorem ForegroundMove.holds_lines {s t : State} (h : ForegroundMove s t) (ok : s.sequencerOk)
    (high : s.lcdE = true ∨ t.lcdE = true) : t.lcdRs = s.lcdRs ∧ t.lcdD = s.lcdD := by
  cases h with
  | pass => exact ⟨rfl, rfl⟩
  | spend => exact ⟨rfl, rfl⟩
  | read => exact ⟨rfl, rfl⟩
  | accept => exact ⟨rfl, rfl⟩
  | advance cw m busy current => exact perform_lines_of_high ok busy current high
  | finish cw m busy current => exact perform_lines_of_high ok busy current high

/-- Settles O35: outside reset only the foreground agent's part writes a line. -/
theorem linesHeldAroundTheEnablePulse : Obligations.LinesHeldAroundTheEnablePulse := by
  intro s t inv h high outsideReset
  cases step_move h with
  | stay => exact ⟨rfl, rfl⟩
  | edgeIdle => exact ⟨rfl, rfl⟩
  | edge => exact ⟨rfl, rfl⟩
  | foreground _ _ _ _ move => exact move.holds_lines inv.sequencer high
  | reset inp turns turn low => simp [outsideReset inp turns turn] at low
  | tick inp turns u _ _ move =>
    simp only [frontEnd_lcdRs, frontEnd_lcdD, frontEnd_lcdE] at high ⊢
    exact move.holds_lines inv.sequencer high

end Sys2Proof.Machine
end

section
/-! The angle of a position (R122, R124): the formula in lowest terms, and the half-turn it never leaves. -/

namespace Sys2Proof.Machine

theorem angle_eq_mul_360_div_4096 (v : Int) : angle v = (v : Rat) * 360 / 4096 := by
  have turn : (modulus : Rat) = 4096 := by norm_num [modulus]
  rw [angle, turn]

/-- The angle in lowest terms: `360 / 4096 = 45 / 512` (R124). -/
theorem angle_eq_mul_45_div_512 (v : Int) : angle v = (v : Rat) * 45 / 512 := by
  rw [angle_eq_mul_360_div_4096]
  ring

theorem neg_180_le_angle_iff (v : Int) : -180 ≤ angle v ↔ -2048 ≤ v := by
  rw [angle_eq_mul_45_div_512, le_div_iff₀ (by norm_num)]
  norm_cast
  omega

theorem angle_lt_180_iff (v : Int) : angle v < 180 ↔ v < 2048 := by
  rw [angle_eq_mul_45_div_512, div_lt_iff₀ (by norm_num)]
  norm_cast
  omega

/-- Settles O55: the formula in lowest terms gives the range and each fixed point. -/
theorem angleOfPosition : Obligations.AngleOfPosition := by
  have range (v : Int) (low : -2048 ≤ v) (high : v < 2048) : -180 ≤ angle v ∧ angle v < 180 :=
    ⟨(neg_180_le_angle_iff v).mpr low, (angle_lt_180_iff v).mpr high⟩
  refine ⟨fun v => ⟨angle_eq_mul_360_div_4096 v, angle_eq_mul_45_div_512 v⟩, range, ?_⟩
  norm_num [angle_eq_mul_45_div_512]

/-- Settles O56: the numerator over `512` is `45 * v`, of magnitude at most `45 * 2048 = 92160`. -/
theorem angleIsExact : Obligations.AngleIsExact := by
  intro v low high
  refine ⟨v * 45, by omega, by omega, ?_⟩
  rw [angle_eq_mul_45_div_512]
  push_cast
  rfl

end Sys2Proof.Machine
end

section
/-! The one fault (R130): only a step of the sequencer answers it, when `lcd_pc` points at no micro-operation of the
operation in progress. -/

namespace Sys2Proof.Machine

theorem acceptInit_ne_fault (cw : CmdWord) (s : State) (f : Fault) : acceptInit cw s ≠ .fault f := by
  unfold acceptInit
  split_ifs <;> nofun

theorem acceptWhenReady_ne_fault (cw : CmdWord) (s : State) (f : Fault) : acceptWhenReady cw s ≠ .fault f := by
  unfold acceptWhenReady
  split_ifs <;> nofun

theorem execRdpos_ne_fault (s : State) (f : Fault) : execRdpos s ≠ .fault f := by
  unfold execRdpos
  split_ifs <;> nofun

/-- R130: no operation raises anything. -/
theorem exec_ne_fault (i : Instr) (s : State) (f : Fault) : exec i s ≠ .fault f := by
  cases i with
  | edgeA p a b => nofun
  | edgeB p a b => nofun
  | rdpos => exact execRdpos_ne_fault s f
  | lcdInit => exact acceptInit_ne_fault _ s f
  | lcdCmd byte => exact acceptWhenReady_ne_fault _ s f
  | lcdData byte => exact acceptWhenReady_ne_fault _ s f
  | lcdCursor col row => exact acceptWhenReady_ne_fault _ s f

theorem acceptWord_ne_fault (cw : CmdWord) (s : State) (f : Fault) : acceptWord cw s ≠ .fault f := by
  unfold acceptWord
  split
  · exact exec_ne_fault _ s f
  · nofun

theorem edgeTurn_ne_fault (s : State) (f : Fault) : edgeTurn s ≠ .fault f := by
  unfold edgeTurn
  split
  · nofun
  · exact exec_ne_fault _ _ f

/-- An operation is in progress, and `lcd_pc` points at none of its micro-operations. -/
def State.sequencerStuck (s : State) : Prop :=
  ∃ cw, s.lcdCw = some cw ∧ (uprog s.cfg cw)[s.lcdPc]? = none

theorem microStep_fault {cw : CmdWord} {s : State} {f : Fault} (busy : s.lcdCw = some cw)
    (h : microStep cw s = .fault f) : s.sequencerStuck := by
  unfold microStep at h
  split at h
  · next outside => exact ⟨cw, busy, outside⟩
  · split_ifs at h

theorem foregroundTurn_fault {s : State} {f : Fault} (h : foregroundTurn s = .fault f) : s.sequencerStuck := by
  unfold foregroundTurn at h
  split at h
  · next cw busy => exact microStep_fault busy h
  · split at h
    · cases h
    · exact absurd h (acceptWord_ne_fault _ _ f)

theorem tickForeground_fault {inp : TickIn} {s : State} {f : Fault} (h : tickForeground inp s = .fault f) :
    s.sequencerStuck := by
  unfold tickForeground at h
  split at h
  · next cw busy =>
    split at h
    · split_ifs at h
      exact microStep_fault busy h
    · exact microStep_fault busy h
    · exact microStep_fault busy h
    · exact microStep_fault busy h
    · next outside => exact ⟨cw, busy, (State.currentMicro_of_op busy).symm.trans outside⟩
  · split_ifs at h
    exact absurd h (acceptWord_ne_fault _ _ f)

theorem tick_fault {inp : TickIn} {s : State} {f : Fault} (h : tick inp s = .fault f) : s.sequencerStuck := by
  unfold tick at h
  split_ifs at h
  split at h
  · cases h
  · next foreground => exact tickForeground_fault foreground
  · cases h

/-- A step faults only from a stuck sequencer, whatever turn is scheduled. -/
theorem step_fault {s : State} {f : Fault} (h : step s = .fault f) : s.sequencerStuck := by
  unfold step at h
  split at h
  · cases h
  · next turn turns _ =>
    cases turn with
    | edge => exact absurd h (edgeTurn_ne_fault _ f)
    | foreground => exact foregroundTurn_fault (s := s.setSched turns) h
    | tick inp => exact tick_fault (s := s.setSched turns) h

/-- R22: the invariant keeps `lcd_pc` within the micro-program of the operation in progress. -/
theorem not_sequencerStuck {s : State} (ok : s.sequencerOk) : ¬ s.sequencerStuck := by
  rintro ⟨cw, busy, outside⟩
  obtain ⟨i, word, -, inside, -⟩ := (sequencerOk_busy busy).mp ok
  rw [uprog_of_decodeC word, List.getElem?_eq_none_iff] at outside
  omega

/-- Settles O42: a fault needs a stuck sequencer, which the invariant excludes. -/
theorem noStepFaults : Obligations.NoStepFaults :=
  fun _ _ inv h => not_sequencerStuck inv.sequencer (step_fault h)

end Sys2Proof.Machine
end

section
/-! The host's obligations (R155): a host that meets them is never refused, and goes on meeting them. -/

namespace Sys2Proof.Machine

/-- A word the host may issue next: one that starts no LCD operation, or the LCD operation the driver is ready for,
after which the driver counts as initialised (R155). -/
theorem hostContract_cons {ready : Bool} {cw : CmdWord} {rest : List CmdWord}
    (host : hostContract ready (cw :: rest) = true) : ∃ i, decodeC cw = .op i ∧
      ((i.isLcdOp = false ∧ hostContract ready rest = true) ∨
        (i.isLcdOp = true ∧ ready = !(i == .lcdInit) ∧ hostContract true rest = true)) := by
  rw [hostContract] at host
  split at host
  · cases host
  · next i word =>
    refine ⟨i, word, ?_⟩
    split_ifs at host with lcd init
    · subst init
      obtain ⟨notReady, host⟩ := Bool.and_eq_true_iff.mp host
      exact .inr ⟨lcd, by simpa using notReady, host⟩
    · obtain ⟨rfl, host⟩ := Bool.and_eq_true_iff.mp host
      exact .inr ⟨lcd, by simp [init], host⟩
    · exact .inl ⟨by simpa using lcd, host⟩

theorem hostOk_of_idle {s : State} (idle : s.lcdCw = none) :
    s.hostOk ↔ hostContract s.lcdReady s.cmds = true := by
  simp [State.hostOk, State.lcdBusy_of_idle idle]

theorem hostOk_of_initialized {s : State} (init : (s.lcdReady || s.lcdBusy) = true) :
    s.hostOk ↔ hostContract true s.cmds = true := by
  rw [State.hostOk, init]

/-- R60: a word of the command port that starts no LCD operation is `RDPOS`. -/
theorem eq_rdpos_of_decodeC {cw : CmdWord} {i : Instr} (word : decodeC cw = .op i) (notLcd : i.isLcdOp = false) :
    i = .rdpos := by
  have command := isEdge_of_decodeC word
  cases i with
  | rdpos => rfl
  | edgeA p a b => cases command
  | edgeB p a b => cases command
  | lcdInit => cases notLcd
  | lcdCmd byte => cases notLcd
  | lcdData byte => cases notLcd
  | lcdCursor col row => cases notLcd

/-- The edge agent is never refused, and its steps are nothing to the host (R62, R136). -/
theorem step_of_edge_keeps_hostOk {s : State} {turns : List Turn} (turn : s.sched = .edge :: turns) (host : s.hostOk) :
    ∃ t, step s = .next t ∧ t.hostOk := by
  rw [step_of_edge turn]
  cases records : s.edges with
  | nil => exact ⟨s.setSched turns, by simp [edgeTurn, records], host⟩
  | cons r rest =>
    rw [edgeTurn_of_record (s := s.setSched turns) records, exec_decodeE]
    exact ⟨_, rfl, host⟩

/-- The micro step of an operation in progress: the driver counts as initialised before it, and after it too, because
an operation that completes is `LCD_INIT` or was accepted when `lcd_ready` was 1 (R95). -/
theorem step_of_busy_keeps_hostOk {s : State} {cw : CmdWord} {turns : List Turn} (ok : s.sequencerOk)
    (busy : s.lcdCw = some cw) (turn : s.sched = .foreground :: turns) (host : s.hostOk) :
    ∃ t, step s = .next t ∧ t.hostOk := by
  obtain ⟨i, word, -, inside, -, ready⟩ := (sequencerOk_busy busy).mp ok
  rw [hostOk_of_initialized (by simp [State.lcdBusy_of_op busy])] at host
  refine ⟨_, step_of_current turn busy word (List.getElem?_eq_getElem inside), ?_⟩
  split
  · exact (hostOk_of_initialized (by simp [ready])).mpr (by simpa using host)
  · exact (hostOk_of_initialized (by simp [State.lcdBusy, busy])).mpr (by simpa using host)

/-- The turn of an idle foreground agent accepts the next word of such a host (R94, R155). -/
theorem step_of_idle_keeps_hostOk {s : State} {turns : List Turn} (idle : s.lcdCw = none)
    (turn : s.sched = .foreground :: turns) (host : s.hostOk) : ∃ t, step s = .next t ∧ t.hostOk := by
  cases words : s.cmds with
  | nil => exact ⟨s.setSched turns, by simp [step_of_foreground turn, foregroundTurn, idle, words], host⟩
  | cons cw rest =>
    rw [hostOk_of_idle idle, words] at host
    obtain ⟨i, word, ⟨notLcd, host⟩ | ⟨lcd, ready, host⟩⟩ := hostContract_cons host
    · obtain rfl := eq_rdpos_of_decodeC word notLcd
      obtain ⟨-, foreground⟩ := stepRunsTheDecodedOperation
      have reads := exec_rdpos_of_idle (s := (s.setSched turns).setCmds rest) idle
      refine ⟨_, (foreground s turns cw rest .rdpos turn idle words word).trans reads, ?_⟩
      exact (hostOk_of_idle (s := ((s.setSched turns).setCmds rest).emit _) idle).mpr host
    · exact ⟨_, step_of_lcdOp (encode_of_decodeC word) lcd idle ready words turn,
        (hostOk_of_initialized (Bool.or_true _)).mpr host⟩

/-- R155: no step of the two agents is refused, and the host still meets its obligations after it. -/
theorem step_keeps_hostOk {s : State} (ok : s.sequencerOk) (noTick : eventLevel s.sched = true) (host : s.hostOk) :
    ∃ t, step s = .next t ∧ t.hostOk := by
  match turn : s.sched with
  | [] => exact ⟨s, by simp only [step, turn], host⟩
  | .edge :: turns => exact step_of_edge_keeps_hostOk turn host
  | .foreground :: turns =>
    cases op : s.lcdCw with
    | none => exact step_of_idle_keeps_hostOk op turn host
    | some cw => exact step_of_busy_keeps_hostOk ok op turn host
  | .tick inp :: turns => simp [turn] at noTick

/-- Settles O43, by induction on the number of steps: each answers a next state, which meets the invariant, the host's
obligations, and names no tick. -/
theorem wellBehavedHostIsNeverRefused : Obligations.WellBehavedHostIsNeverRefused := by
  intro n
  induction n with
  | zero => exact fun s _ host _ => ⟨s, rfl, host⟩
  | succ n ih =>
    intro s inv host noTick
    obtain ⟨u, first, host'⟩ := step_keeps_hostOk inv.sequencer noTick host
    rw [runSteps_succ_of_next first]
    exact ih u (everyStepKeepsTheInvariant s u inv first) host' ((step_move first).keeps_eventLevel noTick)

end Sys2Proof.Machine
end

section
/-! The sequencer in clock ticks (R163): a pin write takes one, a `WAIT` its own number of them, and a tick in reset
abandons the operation (R151, R153). -/

namespace Sys2Proof.Machine

/-! ### A tick in reset -/

/-- Settles O39: such a tick is the reset of the block alone. -/
theorem resetTickAbandonsEverything : Obligations.ResetTickAbandonsEverything := by
  intro s inp turns turn low
  refine ⟨false, false, ?_⟩
  rw [step_of_tick turn, tick, low]
  rfl

/-! ### A tick that performs a micro-operation -/

@[simp] theorem frontEnd_sched (a b : Bool) (s : State) : (frontEnd a b s).sched = s.sched := by rw [frontEnd_eq]; rfl
@[simp] theorem frontEnd_waited (a b : Bool) (s : State) : (frontEnd a b s).waited = s.waited := by
  rw [frontEnd_eq]; rfl
@[simp] theorem frontEnd_lcdView (a b : Bool) (s : State) : (frontEnd a b s).lcdView = s.lcdView := by
  rw [frontEnd_eq]; rfl

theorem perform_setSched (s : State) (m : MicroOp) (turns : List Turn) :
    (s.setSched turns).perform m = (s.perform m).setSched turns := by
  cases m <;> rfl

/-- In the last tick of a `WAIT` that is not lengthened, and in any tick of another micro-operation, the foreground
agent's part is the micro step (R163). -/
theorem tickForeground_of_current {inp : TickIn} {s : State} {cw : CmdWord} {m : MicroOp} (busy : s.lcdCw = some cw)
    (current : s.currentMicro = some m)
    (ended : ∀ d, m = .wait d → waitTicks s.cfg d ≤ s.waited + 1 ∧ inp.hold = false) :
    tickForeground inp s = microStep cw s := by
  cases m with
  | wait d =>
    obtain ⟨enough, notHeld⟩ := ended d rfl
    simp [tickForeground, busy, current, notHeld, Nat.not_lt.mpr enough]
  | setRs v => simp only [tickForeground, busy, current]
  | setD n => simp only [tickForeground, busy, current]
  | setE v => simp only [tickForeground, busy, current]

/-- Before its last tick a `WAIT` takes another one, lengthened or not (R163). -/
theorem tickForeground_of_wait {s : State} {d : Nat} (wait : s.currentMicro = some (.wait d))
    (left : s.waited + 1 < waitTicks s.cfg d) (inp : TickIn) : tickForeground inp s = .next s.spendTick := by
  obtain ⟨cw, busy⟩ := State.op_of_currentMicro wait
  simp [tickForeground, busy, wait, left]

theorem microStep_of_current {s : State} {cw : CmdWord} {m : MicroOp} (current : (uprog s.cfg cw)[s.lcdPc]? = some m) :
    microStep cw s = .next (if s.lcdPc + 1 = (uprog s.cfg cw).length then (s.perform m).finishOp (isInitWord cw)
      else (s.perform m).nextMicro) := by
  rw [microStep, current, apply_ite Host.Outcome.next]

/-- The tick that performs the micro-operation at `lcd_pc` (R94, R163). -/
theorem step_of_tick_current {s : State} {inp : TickIn} {turns : List Turn} {cw : CmdWord} {m : MicroOp}
    (turn : s.sched = .tick inp :: turns) (high : inp.rstN = true) (busy : s.lcdCw = some cw)
    (current : s.currentMicro = some m)
    (ended : ∀ d, m = .wait d → waitTicks s.cfg d ≤ s.waited + 1 ∧ inp.hold = false) :
    step s = .next (frontEnd inp.encA inp.encB (if s.lcdPc + 1 = (uprog s.cfg cw).length
      then ((s.perform m).finishOp (isInitWord cw)).setSched turns else (s.perform m).nextMicro.setSched turns)) := by
  have foreground := tickForeground_of_current (s := s.setSched turns) busy current ended
  have current' : (uprog s.cfg cw)[s.lcdPc]? = some m := (State.currentMicro_of_op busy).symm.trans current
  rw [microStep_of_current (s := s.setSched turns) current', perform_setSched] at foreground
  exact step_of_tick_foreground turn high foreground

theorem getLast?_append_writeByte (prog : List MicroOp) (c : Params) (rs : Bool) (v : Byte) :
    (prog ++ writeByte c rs v).getLast? = some (.wait (postDelay c rs v)) := by
  rw [writeByte, ← List.append_assoc, List.getLast?_concat]

/-- R104, R105, R106, R108: every micro-program ends with a byte write, and so with a delay. -/
theorem wait_of_getLast?_microProgram {c : Params} {i : Instr} {m : MicroOp}
    (last : (microProgram c i).getLast? = some m) : ∃ d, m = .wait d := by
  cases i with
  | edgeA p a b => cases last
  | edgeB p a b => cases last
  | rdpos => cases last
  | lcdInit => exact ⟨_, Option.some.inj (last.symm.trans (getLast?_append_writeByte ..))⟩
  | lcdCmd byte => cases last; exact ⟨_, rfl⟩
  | lcdData byte => cases last; exact ⟨_, rfl⟩
  | lcdCursor col row => cases last; exact ⟨_, rfl⟩

/-- A micro-operation that is not a delay is never the last of its operation. -/
theorem more_of_not_wait {c : Params} {cw : CmdWord} {k : Nat} {m : MicroOp} (current : (uprog c cw)[k]? = some m)
    (notWait : ∀ d, m ≠ .wait d) : k + 1 ≠ (uprog c cw).length := by
  intro atEnd
  have last : (uprog c cw).getLast? = some m := by
    rw [List.getLast?_eq_getElem?, ← atEnd, Nat.add_sub_cancel, current]
  cases word : decodeC cw with
  | reserved why => simp [uprog, word] at current
  | op i =>
    rw [uprog_of_decodeC word] at last
    obtain ⟨d, wait⟩ := wait_of_getLast?_microProgram last
    exact notWait d wait

/-- Settles O57: the tick performs the pin write, after which the operation has more to do. -/
theorem pinWriteTakesOneTick : Obligations.PinWriteTakesOneTick := by
  intro s inp turns m turn high current notWait
  obtain ⟨cw, busy⟩ := State.op_of_currentMicro current
  have more := more_of_not_wait ((State.currentMicro_of_op busy).symm.trans current) notWait
  refine ⟨_, step_of_tick_current turn high busy current fun d wait => absurd wait (notWait d), ?_⟩
  simp [more]

/-! ### The ticks of a `WAIT` -/

theorem one_le_waitTicks (c : Params) (d : Nat) : 1 ≤ waitTicks c d := Nat.le_max_left ..

/-- A tick within a `WAIT` (R163). -/
theorem step_of_tick_wait {s : State} {inp : TickIn} {turns : List Turn} {d : Nat}
    (turn : s.sched = .tick inp :: turns) (high : inp.rstN = true) (wait : s.currentMicro = some (.wait d))
    (left : s.waited + 1 < waitTicks s.cfg d) :
    step s = .next (frontEnd inp.encA inp.encB (s.setSched turns).spendTick) :=
  step_of_tick_foreground turn high (tickForeground_of_wait (s := s.setSched turns) wait left inp)

/-- R94: the micro-operation is that of the word, the index and the parameters. -/
theorem currentMicro_congr {s t : State} (cw : t.lcdCw = s.lcdCw) (pc : t.lcdPc = s.lcdPc) (cfg : t.cfg = s.cfg) :
    t.currentMicro = s.currentMicro := by
  simp only [State.currentMicro, cw, pc, cfg]

/-- From `s` to `t` the machine has come to the schedule `turns` and has spent `n` ticks of a `WAIT`: the trace and unit
L are as they were, but for the count of ticks. -/
structure Waited (s : State) (n : Nat) (turns : List Turn) (t : State) : Prop where
  sched : t.sched = turns
  obs : t.obs = s.obs
  view : t.lcdView = { s.lcdView with waited := s.waited + n }

/-- Ticks too few for the `WAIT` are spent on it, whatever the inputs do (R107, R163). -/
theorem runSteps_of_wait (inps : List TickIn) {s : State} {turns : List Turn} {d : Nat}
    (wait : s.currentMicro = some (.wait d)) (sched : s.sched = inps.map .tick ++ turns)
    (high : ∀ inp ∈ inps, inp.rstN = true) (left : s.waited + inps.length < waitTicks s.cfg d) :
    ∃ t, runSteps inps.length s = .next t ∧ Waited s inps.length turns t := by
  induction inps generalizing s with
  | nil => exact ⟨s, rfl, sched, rfl, rfl⟩
  | cons inp inps ih =>
    obtain ⟨highNow, highLater⟩ := List.forall_mem_cons.mp high
    rw [List.length_cons, ← Nat.add_assoc, Nat.add_right_comm] at left
    have first := step_of_tick_wait (turns := inps.map .tick ++ turns) sched highNow wait (by omega)
    obtain ⟨t, others, sched', obs, view⟩ := ih
      (s := frontEnd inp.encA inp.encB (s.setSched (inps.map .tick ++ turns)).spendTick)
      ((currentMicro_congr (by simp) (by simp) (by simp)).trans wait) (by simp) highLater (by simpa using left)
    refine ⟨t, (runSteps_succ_of_next first).trans others, sched', by simpa using obs, ?_⟩
    rw [view, frontEnd_lcdView, frontEnd_waited, List.length_cons, Nat.add_comm inps.length 1, ← Nat.add_assoc]
    rfl

/-- The last tick of a `WAIT`, when it is not lengthened, records its event (R107, R163). -/
theorem step_of_tick_last_wait {s : State} {last : TickIn} {d : Nat} (wait : s.currentMicro = some (.wait d))
    (sched : s.sched = [.tick last]) (high : last.rstN = true) (notHeld : last.hold = false)
    (enough : waitTicks s.cfg d ≤ s.waited + 1) : ∃ t, step s = .next t ∧ t.obs = s.obs ++ [.delay d] := by
  obtain ⟨cw, busy⟩ := State.op_of_currentMicro wait
  have ended : ∀ d', MicroOp.wait d = .wait d' → waitTicks s.cfg d' ≤ s.waited + 1 ∧ last.hold = false := by
    rintro _ ⟨⟩
    exact ⟨enough, notHeld⟩
  refine ⟨_, step_of_tick_current sched high busy wait ended, ?_⟩
  split_ifs <;> simp [eventOf]

/-- Settles O54: all ticks but the last of the `WAIT` are spent on it, and the last one performs it. -/
theorem waitTakesItsTicks : Obligations.WaitTakesItsTicks := by
  intro s d inps wait fresh sched high
  constructor
  · intro few
    obtain ⟨t, run, -, obs, view⟩ := runSteps_of_wait inps (turns := []) wait (by simpa using sched) high (by omega)
    simp only [State.lcdView, LcdView.mk.injEq] at view
    obtain ⟨rs, e, data, -, cw, pc, -⟩ := view
    exact ⟨t, run, obs, cw, pc, rs, e, data⟩
  · intro enough notHeld
    obtain rfl | ⟨init, last, rfl⟩ := inps.eq_nil_or_concat'
    · exact absurd enough (Nat.ne_of_lt (one_le_waitTicks s.cfg d))
    rw [List.length_append, List.length_singleton] at enough
    obtain ⟨t, run, sched', obs, view⟩ := runSteps_of_wait init (turns := [.tick last]) wait
      (by simpa using sched) (fun inp h => high inp (by simp [h])) (by omega)
    simp only [State.lcdView, LcdView.mk.injEq] at view
    obtain ⟨-, -, -, -, cw, pc, waited, cfg, -⟩ := view
    obtain ⟨u, ends, event⟩ := step_of_tick_last_wait ((currentMicro_congr cw pc cfg).trans wait) sched'
      (high last (by simp)) (notHeld last (by simp)) (by rw [cfg]; omega)
    refine ⟨u, ?_, obs ▸ event⟩
    rw [List.length_append, runSteps_add run, List.length_singleton]
    exact runSteps_succ_of_next ends

end Sys2Proof.Machine
end
